-- ==== Sys2Proof/Word.lean ====
section
/-! DEFINITION. The bit vectors the spec works on (00_scope R10). -/

namespace Sys2Proof

/-- One byte: a command byte, a parameter byte, a pixel byte, a shadow register. -/
abbrev Byte := BitVec 8

/-- A window coordinate as CASET and RASET carry it: 16 bits unsigned (R61). -/
abbrev Half := BitVec 16

/-- A 32-bit word: a request coordinate, a gap (two's complement, D11) or a QuadAddressed address word (R86). -/
abbrev Word := BitVec 32

end Sys2Proof
end

