-- ==== Sys2Proof/Syntax.lean ====
section
/-! DEFINITION. The instructions: one constructor per row of spec/opcode_table.json. -/

namespace Sys2Proof

/-- The transport encoding of an instance (00_scope R4, R8; 10_state R21). -/
inductive Variant
  | plain
  | quadAddressed
deriving DecidableEq, Repr

/-- A reset line and its active polarity (R8 `RESET_LINE`). -/
structure ResetLine where
  gpio       : Nat
  activeHigh : Bool
deriving DecidableEq, Repr

/-- One row of an init table (10_state R37, 30_encoding R95): no length field of its own. -/
structure InitRow where
  opcode  : Byte
  payload : List Byte
  delayMs : Nat
deriving DecidableEq, Repr

/-- The instructions, in the order of the opcode table: host requests (R80), the two op ranges that spell no
operation (R82), the transactions of the two transport variants (R84 to R88), and the command bytes the controller
emits (R93). -/
inductive Instr
  | create (transport : Option Variant) (resetLine : Option ResetLine) (colorOrder bitsPerPixel : Byte)
      (table : Option (List InitRow))
  | reset
  | init
  | draw (xStart yStart xEnd yEnd : Word) (pixels : Nat)
  | mirror (x y : Bool)
  | swapXy (s : Bool)
  | invertColor (on : Bool)
  | displayOnOff (on : Bool)
  | setGap (x y : Word)
  | destroy
  /-- Op codes 0xA and 0xB; the operand is bit 0 of the op code. -/
  | reqInvalid (low : BitVec 1)
  /-- Op codes 0xC to 0xF; the operand is bits 1:0 of the op code. -/
  | reqInvalidHi (low : BitVec 2)
  | sendCommandQuad (op8 : Byte) (payload : List Byte)
  | sendPixelsQuad (op8 : Byte) (buf n : Nat)
  /-- The read word 0x03xxxxxx; the operand is its bits 23:0. -/
  | qspiRead (low : BitVec 24)
  | sendCommandPlain (op8 : Byte) (payload : List Byte)
  | sendPixelsPlain (op8 : Byte) (buf n : Nat)
  | swreset
  | slpout
  | invoff
  | invon
  | dispoff
  | dispon
  | caset (xs xe : Half)
  | raset (ys ye : Half)
  | ramwr (buf n : Nat)
  | madctl
  | colmod
  | vendorRow (op8 : Byte) (payload : List Byte)
deriving DecidableEq, Repr

end Sys2Proof
end

