-- ==== Sys2Proof/Config.lean ====
section
/-! DEFINITION. The parameters of 00_scope R8, and the free values of what the spec leaves open. -/

namespace Sys2Proof.Config

/-! ### Values the source fixes (R8) -/

/-- `QSPI_OP_WRITE`, the address-word tag of a command transfer. -/
def qspiOpWrite : Byte := 0x02
/-- `QSPI_OP_READ`, a legal tag this block never emits (R69). -/
def qspiOpRead : Byte := 0x03
/-- `QSPI_OP_COLOR`, the address-word tag of a pixel transfer. -/
def qspiOpColor : Byte := 0x32
/-- `COLMOD_RGB565`. -/
def colmodRgb565 : Byte := 0x55
/-- `COLMOD_RGB666`. -/
def colmodRgb666 : Byte := 0x66
/-- `T_RST_ASSERT_MS`. -/
def tRstAssertMs : Nat := 10
/-- `T_RST_RELEASE_MS`. -/
def tRstReleaseMs : Nat := 10
/-- `T_SWRESET_MS`. -/
def tSwresetMs : Nat := 20
/-- `T_SLPOUT_MS`. -/
def tSlpoutMs : Nat := 100
/-- `LEN_BITS`, the width of a pixel transfer's byte length (decision D12). -/
def lenBits : Nat := 32

/-! ### Free values: no body, so nothing can be proved of them -/

/-- The environment's answer to a draw it has not listed: allocation (D6), reset-line claim (D7), line level (D31),
BUS_ACK (D27). Log 4. -/
opaque freeAnswer : Nat → Bool

/-- Whether the Transport completes its oldest pending transfer now, where the foreground could also move (R115,
R243, U23). Log 3. -/
opaque completesNow : Nat → Bool

/-- A byte the panel receives from a buffer the host wrote while it was pending (R74, U7). Log 12. -/
opaque racedByte : Nat → Byte

/-- `INIT_TABLE_DEFAULT : PANEL_MODEL → list InitCommand`, OPEN (R8, D28). Log 6. -/
opaque initTableDefault : Nat → List InitRow

/-! ### The parameters a build may choose -/

/-- The named parameters of R8 that a reader may change: the command bytes (D2), the orientation bit positions (D3),
`MAX_PAYLOAD` (D26; none is unbounded) and `PANEL_MODEL`. -/
structure Params where
  cmdSwreset : Byte
  cmdSlpout  : Byte
  cmdInvoff  : Byte
  cmdInvon   : Byte
  cmdDispoff : Byte
  cmdDispon  : Byte
  cmdCaset   : Byte
  cmdRaset   : Byte
  cmdRamwr   : Byte
  cmdMadctl  : Byte
  cmdColmod  : Byte
  bitMy  : Fin 8
  bitMx  : Fin 8
  bitMv  : Fin 8
  bitMl  : Fin 8
  bitBgr : Fin 8
  bitMh  : Fin 8
  maxPayload : Option Nat
  panelModel : Nat
deriving DecidableEq, Repr

/-- R8's defaults; `PANEL_MODEL` is OPEN and 0 is only a placeholder (log 6). -/
def Params.default : Params where
  cmdSwreset := 0x01
  cmdSlpout  := 0x11
  cmdInvoff  := 0x20
  cmdInvon   := 0x21
  cmdDispoff := 0x28
  cmdDispon  := 0x29
  cmdCaset   := 0x2A
  cmdRaset   := 0x2B
  cmdRamwr   := 0x2C
  cmdMadctl  := 0x36
  cmdColmod  := 0x3A
  bitMy  := 7
  bitMx  := 6
  bitMv  := 5
  bitMl  := 4
  bitBgr := 3
  bitMh  := 2
  maxPayload := none
  panelModel := 0

/-- The eleven command bytes the controller emits of its own accord (R93). -/
def Params.commands (par : Params) : List Byte :=
  [par.cmdSwreset, par.cmdSlpout, par.cmdInvoff, par.cmdInvon, par.cmdDispoff, par.cmdDispon, par.cmdCaset,
   par.cmdRaset, par.cmdRamwr, par.cmdMadctl, par.cmdColmod]

/-- "The eleven CMD_* values must be pairwise distinct" (R94). -/
abbrev Params.distinct (par : Params) : Prop := par.commands.Nodup

/-- The six named fields of the orientation register (R22). -/
inductive OrientField
  | my | mx | mv | ml | bgr | mh
deriving DecidableEq, Repr

/-- The bit position of a field (`BIT_*`). -/
def Params.bitOf (par : Params) : OrientField → Fin 8
  | .my => par.bitMy
  | .mx => par.bitMx
  | .mv => par.bitMv
  | .ml => par.bitMl
  | .bgr => par.bitBgr
  | .mh => par.bitMh

end Sys2Proof.Config
end

