-- ==== Sys2Proof/WellFormed.lean ====
section
/-! DEFINITION. Which instructions an encoding can spell: R113 bounds the byte count of a pixel transfer. -/

namespace Sys2Proof

/-- R113: `n < 2^LEN_BITS` for the rows that carry a pixel byte count. Every other operand is bounded by its type. -/
def Instr.wf : Instr → Bool
  | .create _ _ _ _ _ => true
  | .reset => true
  | .init => true
  | .draw _ _ _ _ _ => true
  | .mirror _ _ => true
  | .swapXy _ => true
  | .invertColor _ => true
  | .displayOnOff _ => true
  | .setGap _ _ => true
  | .destroy => true
  | .reqInvalid _ => true
  | .reqInvalidHi _ => true
  | .sendCommandQuad _ _ => true
  | .sendPixelsQuad _ _ n => decide (n < 2 ^ Config.lenBits)
  | .qspiRead _ => true
  | .sendCommandPlain _ _ => true
  | .sendPixelsPlain _ _ n => decide (n < 2 ^ Config.lenBits)
  | .swreset => true
  | .slpout => true
  | .invoff => true
  | .invon => true
  | .dispoff => true
  | .dispon => true
  | .caset _ _ => true
  | .raset _ _ => true
  | .ramwr _ n => decide (n < 2 ^ Config.lenBits)
  | .madctl => true
  | .colmod => true
  | .vendorRow _ _ => true

end Sys2Proof
end

