-- ==== Sys2Proof/Decode.lean ====
section
/-! DEFINITION. The decoder and the encoder. The op codes, operand fields, address words and command bytes are the
spec's (30_encoding R80 to R93); how the typed operands of a record are laid out in bytes is the model's (log 9). -/

namespace Sys2Proof

/-- Which port or layer a record is presented to. A byte alone does not tell: the table gives the same bits to
requests, Plain transfers, command bytes and init rows (log 10). -/
inductive Format
  | req        -- a host request on REQ (R80)
  | quadWord   -- a QuadAddressed transaction (R86)
  | plainCmd   -- a Plain control transfer (R84)
  | plainPix   -- a Plain colour transfer (R85)
  | busCmd     -- a command the controller builds itself (R93)
  | tableRow   -- an init row (R166)
deriving DecidableEq, Repr

/-- Why a record is no instruction. -/
inductive DecodeError
  | truncated        -- the record ends inside an operand
  | trailing         -- bytes are left over
  | badTag           -- an option, Boolean or variant byte that means nothing
  | reservedOpBits   -- bits 7:4 of the op byte are not zero
  | notEmitted       -- an address word R89 lists as not emitted
  | lengthTooLong    -- a pixel byte count of 2^LEN_BITS or more (R113)
  | unknownCommand   -- no CMD_* byte
deriving DecidableEq, Repr

/-- What a reader of a record answers: a value and the bytes after it. -/
abbrev Read (α : Type) := Except DecodeError (α × List Byte)

/-- One reader after another. -/
def andThen {α β : Type} (r : Read α) (f : α → List Byte → Read β) : Read β :=
  match r with
  | .ok (a, bs) => f a bs
  | .error e => .error e

/-! ### Operand fields of a record (log 9) -/

def getByte : List Byte → Read Byte
  | [] => .error .truncated
  | b :: bs => .ok (b, bs)

/-- A natural number, base 128, low group first, bit 7 set on every byte but the last. -/
def getNat : List Byte → Read Nat
  | [] => .error .truncated
  | b :: bs =>
    if b.toNat < 128 then .ok (b.toNat, bs)
    else match getNat bs with
      | .ok (n, rest) => .ok (b.toNat - 128 + 128 * n, rest)
      | .error e => .error e

def putNatFuel : Nat → Nat → List Byte
  | 0, n => [BitVec.ofNat 8 n]
  | fuel + 1, n =>
    if n < 128 then [BitVec.ofNat 8 n] else BitVec.ofNat 8 (n % 128 + 128) :: putNatFuel fuel (n / 128)

def putNat (n : Nat) : List Byte := putNatFuel n n

/-- A 16-bit coordinate, most significant byte first (R61). -/
def getHalf : List Byte → Read Half
  | h :: l :: bs => .ok (h ++ l, bs)
  | _ => .error .truncated

def putHalf (v : Half) : List Byte := [v.extractLsb' 8 8, v.extractLsb' 0 8]

/-- A 32-bit operand, least significant byte first. -/
def getWord : List Byte → Read Word
  | a :: b :: c :: d :: bs => .ok (d ++ c ++ b ++ a, bs)
  | _ => .error .truncated

def putWord (v : Word) : List Byte :=
  [v.extractLsb' 0 8, v.extractLsb' 8 8, v.extractLsb' 16 8, v.extractLsb' 24 8]

/-- A Boolean operand: one bit (R81), 1 = true. -/
def getBool : List Byte → Read Bool
  | [] => .error .truncated
  | b :: bs => if b = 0 then .ok (false, bs) else if b = 1 then .ok (true, bs) else .error .badTag

def putBool (b : Bool) : List Byte := [if b then 1 else 0]

def getBytes : Nat → List Byte → Read (List Byte)
  | 0, bs => .ok ([], bs)
  | _ + 1, [] => .error .truncated
  | n + 1, b :: bs =>
    match getBytes n bs with
    | .ok (p, rest) => .ok (b :: p, rest)
    | .error e => .error e

def getTransport : List Byte → Read (Option Variant)
  | [] => .error .truncated
  | b :: bs =>
    if b = 0 then .ok (none, bs)
    else if b = 1 then .ok (some .plain, bs)
    else if b = 2 then .ok (some .quadAddressed, bs)
    else .error .badTag

def putTransport : Option Variant → List Byte
  | none => [0]
  | some .plain => [1]
  | some .quadAddressed => [2]

def getResetLine (bs : List Byte) : Read (Option ResetLine) :=
  andThen (getBool bs) fun present bs =>
  if present then
    andThen (getNat bs) fun g bs =>
    andThen (getBool bs) fun ah bs =>
    .ok (some ⟨g, ah⟩, bs)
  else .ok (none, bs)

def putResetLine : Option ResetLine → List Byte
  | none => putBool false
  | some l => putBool true ++ putNat l.gpio ++ putBool l.activeHigh

def getRow (bs : List Byte) : Read InitRow :=
  andThen (getByte bs) fun op bs =>
  andThen (getNat bs) fun len bs =>
  andThen (getBytes len bs) fun p bs =>
  andThen (getNat bs) fun d bs =>
  .ok (⟨op, p, d⟩, bs)

def putRow (r : InitRow) : List Byte := r.opcode :: (putNat r.payload.length ++ r.payload ++ putNat r.delayMs)

def getRows : Nat → List Byte → Read (List InitRow)
  | 0, bs => .ok ([], bs)
  | n + 1, bs =>
    andThen (getRow bs) fun r bs =>
    andThen (getRows n bs) fun rs bs =>
    .ok (r :: rs, bs)

def putRows : List InitRow → List Byte
  | [] => []
  | r :: rs => putRow r ++ putRows rs

def getTable (bs : List Byte) : Read (Option (List InitRow)) :=
  andThen (getBool bs) fun present bs =>
  if present then
    andThen (getNat bs) fun len bs =>
    andThen (getRows len bs) fun rows bs =>
    .ok (some rows, bs)
  else .ok (none, bs)

def putTable : Option (List InitRow) → List Byte
  | none => putBool false
  | some rows => putBool true ++ putNat rows.length ++ putRows rows

/-- A pixel transfer's buffer reference and byte count; the count is refused at `2^LEN_BITS` (R113). -/
def getPixels (bs : List Byte) : Read (Nat × Nat) :=
  andThen (getNat bs) fun buf bs =>
  andThen (getNat bs) fun n bs =>
  if n < 2 ^ Config.lenBits then .ok ((buf, n), bs) else .error .lengthTooLong

def putPixels (buf n : Nat) : List Byte := putNat buf ++ putNat n

/-! ### Requests (R80, R81) -/

def getCreate (bs : List Byte) : Read Instr :=
  andThen (getTransport bs) fun t bs =>
  andThen (getResetLine bs) fun l bs =>
  andThen (getByte bs) fun co bs =>
  andThen (getByte bs) fun bpp bs =>
  andThen (getTable bs) fun tab bs =>
  .ok (.create t l co bpp tab, bs)

def getDraw (bs : List Byte) : Read Instr :=
  andThen (getWord bs) fun xs bs =>
  andThen (getWord bs) fun ys bs =>
  andThen (getWord bs) fun xe bs =>
  andThen (getWord bs) fun ye bs =>
  andThen (getNat bs) fun buf bs =>
  .ok (.draw xs ys xe ye buf, bs)

def getMirror (bs : List Byte) : Read Instr :=
  andThen (getBool bs) fun x bs =>
  andThen (getBool bs) fun y bs =>
  .ok (.mirror x y, bs)

def getSetGap (bs : List Byte) : Read Instr :=
  andThen (getWord bs) fun x bs =>
  andThen (getWord bs) fun y bs =>
  .ok (.setGap x y, bs)

/-- A one-Boolean request. -/
def getFlag (mk : Bool → Instr) (bs : List Byte) : Read Instr :=
  andThen (getBool bs) fun b bs =>
  .ok (mk b, bs)

/-- The operands of op code `op` (R81). Codes 0xA to 0xF spell no operation whatever follows them (R82). -/
def getArgs (op : BitVec 4) (bs : List Byte) : Read Instr :=
  match op.toNat with
  | 0 => getCreate bs
  | 1 => .ok (.reset, bs)
  | 2 => .ok (.init, bs)
  | 3 => getDraw bs
  | 4 => getMirror bs
  | 5 => getFlag .swapXy bs
  | 6 => getFlag .invertColor bs
  | 7 => getFlag .displayOnOff bs
  | 8 => getSetGap bs
  | 9 => .ok (.destroy, bs)
  | 10 => .ok (.reqInvalid 0, [])
  | 11 => .ok (.reqInvalid 1, [])
  | _ => .ok (.reqInvalidHi (op.extractLsb' 0 2), [])

/-- A request record: `op` in bits 3:0 of the first byte (R80). -/
def getRequest : List Byte → Read Instr
  | [] => .error .truncated
  | b :: bs => if b.extractLsb' 4 4 = 0 then getArgs (b.extractLsb' 0 4) bs else .error .reservedOpBits

/-! ### Transactions (R84 to R89) -/

/-- The address word of R86: tag in bits 31:24, command byte in bits 15:8, zero elsewhere. -/
def addressWord (tag op8 : Byte) : Word := (tag.setWidth 32 <<< 24) ||| (op8.setWidth 32 <<< 8)

/-- The word on the wire, most significant byte first (R62). -/
def wordBytes (a : Word) : List Byte :=
  [a.extractLsb' 24 8, a.extractLsb' 16 8, a.extractLsb' 8 8, a.extractLsb' 0 8]

/-- A QuadAddressed record: the four address bytes, then the payload bytes or the pixel descriptor. Words R89 lists as
not emitted are refused, but for the read tag, which the table gives a row (R69). -/
def getQuad : List Byte → Read Instr
  | t :: z :: op :: z' :: bs =>
    if t = Config.qspiOpRead then .ok (.qspiRead (z ++ op ++ z'), bs)
    else if z = 0 ∧ z' = 0 then
      if t = Config.qspiOpWrite then .ok (.sendCommandQuad op bs, [])
      else if t = Config.qspiOpColor then
        match getPixels bs with
        | .ok ((buf, n), rest) => .ok (.sendPixelsQuad op buf n, rest)
        | .error e => .error e
      else .error .notEmitted
    else .error .notEmitted
  | _ => .error .truncated

def getPlainCmd : List Byte → Read Instr
  | [] => .error .truncated
  | op :: bs => .ok (.sendCommandPlain op bs, [])

def getPlainPix : List Byte → Read Instr
  | [] => .error .truncated
  | op :: bs =>
    match getPixels bs with
    | .ok ((buf, n), rest) => .ok (.sendPixelsPlain op buf n, rest)
    | .error e => .error e

/-! ### Command bytes (R93) and init rows (R166) -/

def getCaset (bs : List Byte) : Read Instr :=
  andThen (getHalf bs) fun a bs =>
  andThen (getHalf bs) fun b bs =>
  .ok (.caset a b, bs)

def getRaset (bs : List Byte) : Read Instr :=
  andThen (getHalf bs) fun a bs =>
  andThen (getHalf bs) fun b bs =>
  .ok (.raset a b, bs)

def getRamwr (bs : List Byte) : Read Instr :=
  andThen (getPixels bs) fun (buf, n) bs =>
  .ok (.ramwr buf n, bs)

def getCommand (par : Config.Params) : List Byte → Read Instr
  | [] => .error .truncated
  | b :: bs =>
    if b = par.cmdSwreset then .ok (.swreset, bs)
    else if b = par.cmdSlpout then .ok (.slpout, bs)
    else if b = par.cmdInvoff then .ok (.invoff, bs)
    else if b = par.cmdInvon then .ok (.invon, bs)
    else if b = par.cmdDispoff then .ok (.dispoff, bs)
    else if b = par.cmdDispon then .ok (.dispon, bs)
    else if b = par.cmdCaset then getCaset bs
    else if b = par.cmdRaset then getRaset bs
    else if b = par.cmdRamwr then getRamwr bs
    else if b = par.cmdMadctl then .ok (.madctl, bs)
    else if b = par.cmdColmod then .ok (.colmod, bs)
    else .error .unknownCommand

def getTableRow : List Byte → Read Instr
  | [] => .error .truncated
  | op :: bs => .ok (.vendorRow op bs, [])

/-! ### The decoder -/

/-- The instruction at the front of a record, and what is left of the record. -/
def decodeFront (par : Config.Params) : Format → List Byte → Read Instr
  | .req => getRequest
  | .quadWord => getQuad
  | .plainCmd => getPlainCmd
  | .plainPix => getPlainPix
  | .busCmd => getCommand par
  | .tableRow => getTableRow

/-- A whole record: "each BUS event carries its complete byte sequence" (R96), so nothing may be left over. -/
def decode (par : Config.Params) (f : Format) (bs : List Byte) : Except DecodeError Instr :=
  match decodeFront par f bs with
  | .ok (i, []) => .ok i
  | .ok (_, _ :: _) => .error .trailing
  | .error e => .error e

/-! ### The encoder -/

/-- The format an instruction's record has (the table's "format"; BUS_CMD rows of an init table apart). -/
def Instr.format : Instr → Format
  | .create _ _ _ _ _ => .req
  | .reset => .req
  | .init => .req
  | .draw _ _ _ _ _ => .req
  | .mirror _ _ => .req
  | .swapXy _ => .req
  | .invertColor _ => .req
  | .displayOnOff _ => .req
  | .setGap _ _ => .req
  | .destroy => .req
  | .reqInvalid _ => .req
  | .reqInvalidHi _ => .req
  | .sendCommandQuad _ _ => .quadWord
  | .sendPixelsQuad _ _ _ => .quadWord
  | .qspiRead _ => .quadWord
  | .sendCommandPlain _ _ => .plainCmd
  | .sendPixelsPlain _ _ _ => .plainPix
  | .swreset => .busCmd
  | .slpout => .busCmd
  | .invoff => .busCmd
  | .invon => .busCmd
  | .dispoff => .busCmd
  | .dispon => .busCmd
  | .caset _ _ => .busCmd
  | .raset _ _ => .busCmd
  | .ramwr _ _ => .busCmd
  | .madctl => .busCmd
  | .colmod => .busCmd
  | .vendorRow _ _ => .tableRow

/-- The record that spells an instruction. -/
def encode (par : Config.Params) : Instr → List Byte
  | .create t l co bpp tab => 0x00 :: (putTransport t ++ putResetLine l ++ [co, bpp] ++ putTable tab)
  | .reset => [0x01]
  | .init => [0x02]
  | .draw xs ys xe ye buf => 0x03 :: (putWord xs ++ putWord ys ++ putWord xe ++ putWord ye ++ putNat buf)
  | .mirror x y => 0x04 :: (putBool x ++ putBool y)
  | .swapXy s => 0x05 :: putBool s
  | .invertColor on => 0x06 :: putBool on
  | .displayOnOff on => 0x07 :: putBool on
  | .setGap x y => 0x08 :: (putWord x ++ putWord y)
  | .destroy => [0x09]
  | .reqInvalid low => [(0b0000101 : BitVec 7) ++ low]
  | .reqInvalidHi low => [(0b000011 : BitVec 6) ++ low]
  | .sendCommandQuad op p => wordBytes (addressWord Config.qspiOpWrite op) ++ p
  | .sendPixelsQuad op buf n => wordBytes (addressWord Config.qspiOpColor op) ++ putPixels buf n
  | .qspiRead low => wordBytes (Config.qspiOpRead ++ low)
  | .sendCommandPlain op p => op :: p
  | .sendPixelsPlain op buf n => op :: putPixels buf n
  | .swreset => [par.cmdSwreset]
  | .slpout => [par.cmdSlpout]
  | .invoff => [par.cmdInvoff]
  | .invon => [par.cmdInvon]
  | .dispoff => [par.cmdDispoff]
  | .dispon => [par.cmdDispon]
  | .caset xs xe => par.cmdCaset :: (putHalf xs ++ putHalf xe)
  | .raset ys ye => par.cmdRaset :: (putHalf ys ++ putHalf ye)
  | .ramwr buf n => par.cmdRamwr :: putPixels buf n
  | .madctl => [par.cmdMadctl]
  | .colmod => [par.cmdColmod]
  | .vendorRow op p => op :: p

/-! ### One word of the opcode table (log 10) -/

/-- The format the word alone points to: 32 bits are an address word; a byte below 0x10 is a request's op code; a
`CMD_*` byte is that command; any other byte is an init row's. -/
def tableFormat (nbits w : Nat) : Option Format :=
  if nbits = 32 then some .quadWord
  else if 8 < nbits then none
  else if w < 16 then some .req
  else if BitVec.ofNat 8 w ∈ Config.Params.default.commands then some .busCmd
  else some .tableRow

/-- The word's bytes as the hardware stores them: an address word most significant byte first (R62). -/
def tableBytes (nbits w : Nat) : List Byte :=
  if nbits = 32 then wordBytes (BitVec.ofNat 32 w) else [BitVec.ofNat 8 w]

/-- The instruction whose record starts with the word `w` and goes on with zero bytes as far as its operands need. -/
def decodeTableWord (nbits w : Nat) : Option Instr :=
  match tableFormat nbits w with
  | none => none
  | some f =>
    match decode Config.Params.default f (tableBytes nbits w) with
    | .ok i => some i
    | .error .truncated =>
      match decodeFront Config.Params.default f (tableBytes nbits w ++ List.replicate 32 0) with
      | .ok (i, _) => some i
      | .error _ => none
    | .error _ => none

end Sys2Proof
end

