-- ==== Sys2Proof/Machine/State.lean ====
section
/-! DEFINITION. The state of the block and its surroundings, as plain data; what a step can stop with; the state
before the first request. -/

namespace Sys2Proof.Machine

/-- LIFE (R20). -/
inductive Life
  | absent | live | destroyed
deriving DecidableEq, Repr

/-- BPP, the storage bits per pixel (R21, R27). -/
inductive Bpp
  | b16 | b24
deriving DecidableEq, Repr

/-- The window and pixel transfer of a `draw` that passed its checks: inclusive bounds with the gap added, the buffer
and the byte count (R190, R191). -/
structure Window where
  xs  : Half
  xe  : Half
  ys  : Half
  ye  : Half
  buf : Nat
  n   : Nat
deriving DecidableEq, Repr

/-- The operands of a `draw` request (R81). -/
structure DrawArgs where
  xStart : Word
  yStart : Word
  xEnd   : Word
  yEnd   : Word
  pixels : Nat
deriving DecidableEq, Repr

/-- The operands of an orientation request (R211, R212). -/
inductive OrientCall
  | mirror (x y : Bool)
  | swap (s : Bool)
deriving DecidableEq, Repr

/-- The binary commands CMD_SEND sends (R213, R214). -/
inductive BinaryCmd
  | invOff | invOn | dispOff | dispOn
deriving DecidableEq, Repr

/-- The controller's FSM (R30). A state that works on the request's operands holds them. -/
inductive Fsm
  | idle
  | rstAssert | rstHold1 | rstDeassert | rstHold2
  | rstSwreset | rstSwhold
  | initSlpout | initSlpwait | initPushMadctl | initPushColmod | initRowCheck | initRowSend | initRowWait
  | drawCheck (r : DrawArgs) | drawCaset (w : Window) | drawRaset (w : Window) | drawRamwr (w : Window)
  | oriUpdate (c : OrientCall) | oriSend
  | cmdSend (c : BinaryCmd)
deriving DecidableEq, Repr

/-- A logical bus transaction (R83). -/
inductive Transaction
  | cmd (op8 : Byte) (payload : List Byte)
  | pix (op8 : Byte) (buf n : Nat)
deriving DecidableEq, Repr

/-- A transaction as one of the variants frames it (R84, R85, R87, R88). -/
inductive BusTxn
  | plainCmd (op8 : Byte) (payload : List Byte)
  | plainPix (op8 : Byte) (buf n : Nat)
  | quadCmd (address : Word) (payload : List Byte)
  | quadPix (address : Word) (buf n : Nat)
deriving DecidableEq, Repr

/-- How far the controller's current transaction has come (R72, R110): none; handed to the encoder; on the bus with
BUS_ACK outstanding. -/
inductive BusPhase
  | free
  | submitted (t : Transaction)
  | awaiting (t : Transaction)
deriving DecidableEq, Repr

/-- The statuses that end an operation (R13, R230). -/
inductive Status
  | ok
  | invalidArgument
  | outOfMemory
  | unsupportedConfig
  | transportError (op8 : Byte)
  | contractViolation
  | resetLineError
  | initTableError (op8 : Byte)
deriving DecidableEq, Repr

/-- An event of the history H (R41). -/
inductive Event
  /-- a BUS transaction -/
  | bus (t : BusTxn)
  /-- its BUS_ACK -/
  | ack (ok : Bool)
  /-- RST: the line is claimed as an output, or the claim fails -/
  | claim (gpio : Nat) (ok : Bool)
  /-- RST: the line is released -/
  | release (gpio : Nat)
  /-- RST: `SetReset(active)` and the level it drives on the pin (R136) -/
  | setReset (active pin : Bool)
  /-- TIMER -/
  | waitStart (ms : Nat)
  | waitEnd (ms : Nat)
  /-- DIAGOUT -/
  | diag (op8 : Byte)
  /-- STATUS -/
  | status (st : Status)
  /-- the Transport's data phase of a pending transfer: the bytes it read from `buf` (R115) -/
  | pixels (buf : Nat) (bytes : List Byte)
deriving DecidableEq, Repr

/-- FAULT (R32): the six sticky bits. -/
structure FaultBits where
  contract        : Bool
  callerError     : Bool
  concurrentCall  : Bool
  bufferRace      : Bool
  tableDefect     : Bool
  useAfterDestroy : Bool
deriving DecidableEq, Repr

/-- OVR (R33): which managed commands the current `init` has already recorded. -/
structure Overrides where
  madctl : Bool
  colmod : Bool
deriving DecidableEq, Repr

/-- An entry of PENDING (R36); `raced` marks one whose buffer the host has written since (log 12). -/
structure Pending where
  buf   : Nat
  n     : Nat
  raced : Bool
deriving DecidableEq, Repr

/-- One driver object and its panel: all of 10_state.md. -/
structure Panel where
  life       : Life
  cfgVariant : Variant
  cfgRst     : Option ResetLine
  cfgTable   : List InitRow
  bpp        : Bpp
  orient     : Byte
  colmodSh   : Byte
  xGap       : Word
  yGap       : Word
  fsm        : Fsm
  row        : Nat
  faults     : FaultBits
  ovr        : Overrides
  resetDone  : Bool
  diag       : List Byte
  pending    : List Pending
  hist       : List Event
  /-- the reset line this object holds as an output (R130, R131, R138) -/
  lineHeld   : Option Nat
  /-- the level on the reset line's pin (R42, R136) -/
  pin        : Bool
  bus        : BusPhase
  /-- the Wait in progress, in ms (R12, R280) -/
  hold       : Option Nat
  /-- the host has written into the buffer of this draw's pixel transaction while its BUS_ACK was outstanding (R74;
  the model's own mark, log 12) -/
  sendRaced  : Bool
deriving DecidableEq, Repr

/-- Host memory: address and byte, addresses strictly rising. An address not listed holds no byte (log 7). -/
abbrev Memory := List Host.Cell

/-- The canonical form: addresses strictly rising. -/
def Memory.wf : Memory → Bool
  | [] => true
  | [_] => true
  | a :: b :: m => decide (a.1 < b.1) && Memory.wf (b :: m)

/-- A move of the environment's schedule (log 3). -/
inductive Input
  /-- the foreground moves: the controller, or the BUS_ACK or Timer it waits for -/
  | turn
  /-- the Transport completes the oldest pending transfer (R115) -/
  | complete
  /-- the host presents a request on REQ, whatever the controller is doing (R238) -/
  | request (record : List Byte)
  /-- the host writes a byte of its memory (R74) -/
  | write (addr : Nat) (b : Byte)
  /-- the host turns to another object (R247) -/
  | select (k : Nat)
  /-- the host turns to a panel it has no object for yet (R247) -/
  | freshPanel
deriving DecidableEq, Repr

/-- The whole machine. -/
structure State where
  /-- the object the REQ port addresses -/
  panel   : Panel
  /-- the other objects (R247) -/
  others  : List Panel
  /-- the build's parameters (R8) -/
  params  : Config.Params
  mem     : Memory
  /-- the requests a serialised host has waiting, one record each (R276) -/
  reqs    : List (List Byte)
  /-- the listed moves of the environment; where none is listed the schedule of log 3 holds -/
  inputs  : List Input
  /-- the listed answers of the environment; where none is listed an answer is free (log 4) -/
  answers : List Bool
  /-- how many free values have been taken (log 4) -/
  draws   : Nat
deriving DecidableEq, Repr

/-- Why a step stops with a fault. -/
inductive Fault
  /-- Raised by the init sequencer in a row state whose ROW lies beyond CFG_TABLE. R31 says ROW is in
  `0 ..= len(CFG_TABLE)`, so no run reaches it. Safe: the machine stops where the spec has no state. -/
  | rowOutOfRange
deriving DecidableEq, Repr

/-- Why a step refuses. -/
inductive Refusal
  /-- Raised by an arm of exec that has no meaning yet. Safe. -/
  | notModelled (mnemonic : String)
  /-- Raised at REQ for a record that is no request. Safe: R80 and R81 give it no meaning. -/
  | undecodable (why : DecodeError)
  /-- Raised by the two REQ_INVALID rows: "the model refuses it at the port" (R82). Safe. -/
  | spellsNoOperation (op : BitVec 4)
  /-- Raised by a request other than create where LIFE is ABSENT: "the model refuses the request" (R238). Safe. -/
  | noObject
  /-- Raised by create where two CMD_* values are equal: "refused by the model" (R94). Safe. -/
  | commandsNotDistinct
  /-- Raised by the read word, which "no operation of this block ever emits" (R69). Safe. -/
  | neverEmitted
  /-- Raised by a transaction row where the FSM does not emit it (R93 "emitted by"; R3: the host never issues one).
  Safe: the machine's own step never asks for it. -/
  | notEmittedHere
  /-- Raised where the Transport would read a pixel byte the host has not supplied: "the model has no move for it"
  (R193, U6). Safe. -/
  | bufferTooShort
deriving DecidableEq, Repr

def FaultBits.none : FaultBits where
  contract        := false
  callerError     := false
  concurrentCall  := false
  bufferRace      := false
  tableDefect     := false
  useAfterDestroy := false

def Overrides.none : Overrides where
  madctl := false
  colmod := false

/-- The slot before create (R20, R260): LIFE is ABSENT; R42's value where it does not depend on create's arguments;
elsewhere the value a create of a Plain, RGB, RGB565 panel with no reset line gives (log 5). -/
def Panel.absent : Panel where
  life       := .absent
  cfgVariant := .plain
  cfgRst     := none
  cfgTable   := []
  bpp        := .b16
  orient     := 0x00
  colmodSh   := Config.colmodRgb565
  xGap       := 0
  yGap       := 0
  fsm        := .idle
  row        := 0
  faults     := FaultBits.none
  ovr        := Overrides.none
  resetDone  := false
  diag       := []
  pending    := []
  hist       := []
  lineHeld   := none
  pin        := false
  bus        := .free
  hold       := none
  sendRaced  := false

/-- Before the first request. -/
def State.reset : State where
  panel   := Panel.absent
  others  := []
  params  := Config.Params.default
  mem     := []
  reqs    := []
  inputs  := []
  answers := []
  draws   := 0

end Sys2Proof.Machine
end

