-- ==== Sys2Proof/Machine/Flags.lean ====
section
/-! DEFINITION. The block has no flags register (R29). What stands in its place: the sticky FAULT bits (R32), the
override record set OVR (R33) and the status codes (R230). -/

namespace Sys2Proof.Machine

/-- The members of FAULT (R32). -/
inductive FaultName
  | contract | callerError | concurrentCall | bufferRace | tableDefect | useAfterDestroy
deriving DecidableEq, Repr

/-- `Fault(F)`: sets the sticky bit and clears none (R12, R32). -/
def FaultBits.set (f : FaultBits) : FaultName → FaultBits
  | .contract => { f with contract := true }
  | .callerError => { f with callerError := true }
  | .concurrentCall => { f with concurrentCall := true }
  | .bufferRace => { f with bufferRace := true }
  | .tableDefect => { f with tableDefect := true }
  | .useAfterDestroy => { f with useAfterDestroy := true }

/-- Membership in FAULT. -/
def FaultBits.has (f : FaultBits) : FaultName → Bool
  | .contract => f.contract
  | .callerError => f.callerError
  | .concurrentCall => f.concurrentCall
  | .bufferRace => f.bufferRace
  | .tableDefect => f.tableDefect
  | .useAfterDestroy => f.useAfterDestroy

/-- The status codes (R230; the numbers are the spec's own, D5). -/
def Status.code : Status → Nat
  | .ok => 0
  | .invalidArgument => 1
  | .outOfMemory => 2
  | .unsupportedConfig => 3
  | .transportError _ => 4
  | .contractViolation => 5
  | .resetLineError => 6
  | .initTableError _ => 7

/-- The command byte a status carries (R230, D34). -/
def Status.info : Status → Option Byte
  | .transportError op8 => some op8
  | .initTableError op8 => some op8
  | .ok | .invalidArgument | .outOfMemory | .unsupportedConfig | .contractViolation | .resetLineError => none

end Sys2Proof.Machine
end

