-- ==== Sys2Proof/Machine/Operands.lean ====
section
/-! DEFINITION. Operand forms: create's argument codes (R81), the orientation byte (R22 to R24), the window and length
of a draw (R190, R191), and the row of the table each FSM state emits (R93). -/

namespace Sys2Proof.Machine

open Config (Params)

/-- BPP as a number of bits (R27). -/
def Bpp.bits : Bpp → Nat
  | .b16 => 16
  | .b24 => 24

/-- The `bits_per_pixel` argument: 16 is RGB565, 18 is RGB666 in 24 bits, anything else is unsupported (R81, D8). -/
def pixelFormat (arg : Byte) : Option Bpp :=
  if arg = 16 then some .b16 else if arg = 18 then some .b24 else none

/-- The `color_order` argument: 0 is RGB, 1 is BGR, anything else is unsupported; answers whether it is BGR (D9). -/
def colorIsBgr (arg : Byte) : Option Bool :=
  if arg = 0 then some false else if arg = 1 then some true else none

/-- COLMOD_SH after create (R26). -/
def colmodOf : Bpp → Byte
  | .b16 => Config.colmodRgb565
  | .b24 => Config.colmodRgb666

/-- `1 << BIT` in a byte. -/
def bitMask (k : Fin 8) : Byte := 1#8 <<< k.val

/-- `zext_8(b) << BIT`. -/
def bitValue (k : Fin 8) (b : Bool) : Byte := (BitVec.ofBool b).setWidth 8 <<< k.val

/-- ORIENT after create (R23 CREATE, R24). -/
def orientCreate (par : Params) (bgr : Bool) : Byte := if bgr then bitMask par.bitBgr else 0x00

/-- R23 MIRROR. -/
def orientMirror (par : Params) (v : Byte) (x y : Bool) : Byte :=
  (v &&& ~~~(bitMask par.bitMx ||| bitMask par.bitMy)) ||| bitValue par.bitMx x ||| bitValue par.bitMy y

/-- R23 SWAP. -/
def orientSwap (par : Params) (v : Byte) (s : Bool) : Byte :=
  (v &&& ~~~bitMask par.bitMv) ||| bitValue par.bitMv s

/-- The orientation byte after a request (R211, R212). -/
def orientAfter (par : Params) (v : Byte) : OrientCall → Byte
  | .mirror x y => orientMirror par v x y
  | .swap s => orientSwap par v s

/-- R190's window and R191's length, on integers; none where one of the three contract checks fails. -/
def windowOf (bpp : Bpp) (xGap yGap : Word) (r : DrawArgs) : Option Window :=
  let xs := r.xStart.toInt + xGap.toInt
  let xe := r.xEnd.toInt + xGap.toInt - 1
  let ys := r.yStart.toInt + yGap.toInt
  let ye := r.yEnd.toInt + yGap.toInt - 1
  let n := (r.xEnd.toInt - r.xStart.toInt) * (r.yEnd.toInt - r.yStart.toInt) * bpp.bits / 8
  if ¬ (r.xStart.toInt < r.xEnd.toInt ∧ r.yStart.toInt < r.yEnd.toInt) then none
  else if ¬ (0 ≤ xs ∧ xe ≤ 0xFFFF ∧ 0 ≤ ys ∧ ye ≤ 0xFFFF) then none
  else if 2 ^ Config.lenBits ≤ n then none
  else some ⟨BitVec.ofInt 16 xs, BitVec.ofInt 16 xe, BitVec.ofInt 16 ys, BitVec.ofInt 16 ye, r.pixels, n.toNat⟩

/-- `WinPayload(s, e)`: two big-endian pairs (R61, R90). -/
def winPayload (s e : Half) : List Byte :=
  [s.extractLsb' 8 8, s.extractLsb' 0 8, e.extractLsb' 8 8, e.extractLsb' 0 8]

/-- The command byte of a binary command (R213, R214). -/
def BinaryCmd.byte (par : Params) : BinaryCmd → Byte
  | .invOff => par.cmdInvoff
  | .invOn => par.cmdInvon
  | .dispOff => par.cmdDispoff
  | .dispOn => par.cmdDispon

/-- The opcode-table row of a binary command. -/
def BinaryCmd.row : BinaryCmd → Instr
  | .invOff => .invoff
  | .invOn => .invon
  | .dispOff => .dispoff
  | .dispOn => .dispon

/-- The command byte of a logical transaction. -/
def Transaction.op8 : Transaction → Byte
  | .cmd op _ => op
  | .pix op _ _ => op

/-- The transport row that frames a transaction under a variant (R110, R113, R116). -/
def transportRow : Variant → Transaction → Instr
  | .plain, .cmd op p => .sendCommandPlain op p
  | .plain, .pix op buf n => .sendPixelsPlain op buf n
  | .quadAddressed, .cmd op p => .sendCommandQuad op p
  | .quadAddressed, .pix op buf n => .sendPixelsQuad op buf n

/-- The command row an FSM state emits (R93 "emitted by", R166); none in a state that emits nothing. -/
def Panel.commandRow (p : Panel) : Option Instr :=
  match p.fsm with
  | .rstSwreset => some .swreset
  | .initSlpout => some .slpout
  | .initPushMadctl => some .madctl
  | .initPushColmod => some .colmod
  | .initRowSend => (p.cfgTable[p.row]?).map fun r => .vendorRow r.opcode r.payload
  | .drawCaset w => some (.caset w.xs w.xe)
  | .drawRaset w => some (.raset w.ys w.ye)
  | .drawRamwr w => some (.ramwr w.buf w.n)
  | .oriSend => some .madctl
  | .cmdSend c => some c.row
  | .idle | .rstAssert | .rstHold1 | .rstDeassert | .rstHold2 | .rstSwhold | .initSlpwait | .initRowCheck
  | .initRowWait | .drawCheck _ | .oriUpdate _ => none

/-- The table row the panel's controller runs next: the command row of its FSM state, or the transport row of the
transaction that command handed over. None while a BUS_ACK or a Wait is outstanding, or where the FSM emits nothing. -/
def Panel.nextRow (p : Panel) : Option Instr :=
  match p.bus with
  | .submitted t => some (transportRow p.cfgVariant t)
  | .awaiting _ => none
  | .free => if p.hold.isSome then none else p.commandRow

end Sys2Proof.Machine
end

