-- ==== Sys2Proof/Machine/Ops.lean ====
section
/-! DEFINITION. The shared operations: host memory, the history, ending an operation, accepting a request, the
environment's answers, transactions and holds. -/

namespace Sys2Proof.Machine

open Config (Params)

/-! ### Host memory (R60, R63) -/

/-- The byte at an address, if the host has supplied one. -/
def Memory.read : Memory → Nat → Option Byte
  | [], _ => none
  | (a, b) :: m, k => if k = a then some b else Memory.read m k

/-- A host write; keeps the addresses strictly rising. -/
def Memory.write : Memory → Nat → Byte → Memory
  | [], k, v => [(k, v)]
  | (a, b) :: m, k, v =>
    if k < a then (k, v) :: (a, b) :: m
    else if k = a then (a, v) :: m
    else (a, b) :: Memory.write m k v

/-- `MemRead(buf + k, 1)` for `k = 0 .. n-1`, in order (R85, R115); none where a byte is not there. -/
def Memory.readMany (m : Memory) : Nat → Nat → Option (List Byte)
  | _, 0 => some []
  | buf, n + 1 =>
    match Memory.read m buf, Memory.readMany m (buf + 1) n with
    | some b, some bs => some (b :: bs)
    | _, _ => none

/-! ### One panel -/

/-- Appends an output event to H (R41). -/
def Panel.emit (p : Panel) (e : Event) : Panel := { p with hist := p.hist ++ [e] }

/-- `Fault(F)` (R12, R32). -/
def Panel.setFault (p : Panel) (f : FaultName) : Panel := { p with faults := p.faults.set f }

/-- The end of an operation, with OK or an error (R30, R239): no more events of the operation, `fsm <- IDLE`, STATUS
with its info, every write made so far kept. This is the block's only trap entry; there is nothing to return from,
since the next request is accepted at once (R240). -/
def Panel.finish (p : Panel) (st : Status) : Panel :=
  { p with fsm := .idle, bus := .free, hold := none, hist := p.hist ++ [.status st] }

/-- `Wait(ms)` starts (R12, R280). -/
def Panel.startHold (p : Panel) (ms : Nat) : Panel := { p with hold := some ms, hist := p.hist ++ [.waitStart ms] }

/-- `SetReset(active)`: the pin is `active_high ? active : not active` (R136). -/
def Panel.setReset (p : Panel) (active : Bool) : Panel :=
  match p.cfgRst with
  | some l =>
    { p with
      pin := if l.activeHigh then active else !active
      hist := p.hist ++ [.setReset active (if l.activeHigh then active else !active)] }
  | none => p

/-- Where the FSM goes when its transaction is acknowledged ok (R135, R169, R190, R211 to R214). -/
def Panel.afterOk (p : Panel) : Panel :=
  match p.fsm with
  | .rstSwreset => { p with fsm := .rstSwhold }
  | .initSlpout => { p with fsm := .initSlpwait }
  | .initPushMadctl => { p with fsm := .initPushColmod }
  | .initPushColmod => { p with row := 0, fsm := .initRowCheck }
  | .initRowSend => { p with fsm := .initRowWait }
  | .drawCaset w => { p with fsm := .drawRaset w }
  | .drawRaset w => { p with fsm := .drawRamwr w }
  | .drawRamwr _ => p.finish .ok
  | .oriSend => p.finish .ok
  | .cmdSend _ => p.finish .ok
  | .idle | .rstAssert | .rstHold1 | .rstDeassert | .rstHold2 | .rstSwhold | .initSlpwait | .initRowCheck
  | .initRowWait | .drawCheck _ | .oriUpdate _ => p

/-- PENDING gains a pixel transfer the Transport has accepted (R113), with the mark of a write made while it was being
submitted (log 12); a command leaves nothing behind. -/
def Panel.accepted (p : Panel) : Transaction → Panel
  | .cmd _ _ => p
  | .pix _ buf n => { p with pending := p.pending ++ [⟨buf, n, p.sendRaced⟩] }

/-- BUS_ACK (R110, R113, R233): recorded; on ok the FSM goes on; on err the operation ends with TransportError. -/
def Panel.acknowledge (p : Panel) (t : Transaction) (ok : Bool) : Panel :=
  let q : Panel := { p with bus := .free, hist := p.hist ++ [.ack ok] }
  if ok then (q.accepted t).afterOk else q.finish (.transportError t.op8)

/-- Where the FSM goes when its Wait ends (R134, R135, R162, R167). -/
def Panel.afterHold (p : Panel) : Panel :=
  match p.fsm with
  | .rstHold1 => { p with fsm := .rstDeassert }
  | .rstHold2 => { p with resetDone := true }.finish .ok
  | .rstSwhold => { p with resetDone := true }.finish .ok
  | .initSlpwait => { p with fsm := .initPushMadctl }
  | .initRowWait => { p with row := p.row + 1, fsm := .initRowCheck }
  | .idle | .rstAssert | .rstDeassert | .rstSwreset | .initSlpout | .initPushMadctl | .initPushColmod
  | .initRowCheck | .initRowSend | .drawCheck _ | .drawCaset _ | .drawRaset _ | .drawRamwr _ | .oriUpdate _
  | .oriSend | .cmdSend _ => p

/-- The Timer ends a Wait of `ms`. -/
def Panel.endHold (p : Panel) (ms : Nat) : Panel :=
  Panel.afterHold { p with hold := none, hist := p.hist ++ [.waitEnd ms] }

/-- Whether a pending transfer's buffer holds the address (R74). -/
def Pending.covers (e : Pending) (a : Nat) : Bool := decide (e.buf ≤ a) && decide (a < e.buf + e.n)

/-- The buffer of the draw in progress, which the host must leave alone from the request on (R76): none where no draw is
in progress, or where its contract check will fail and it has no transfer. -/
def Panel.drawBuffer (p : Panel) : Option Pending :=
  match p.fsm with
  | .drawCheck r => (windowOf p.bpp p.xGap p.yGap r).map fun w => ⟨w.buf, w.n, false⟩
  | .drawCaset w | .drawRaset w | .drawRamwr w => some ⟨w.buf, w.n, false⟩
  | .idle | .rstAssert | .rstHold1 | .rstDeassert | .rstHold2 | .rstSwreset | .rstSwhold | .initSlpout | .initSlpwait
  | .initPushMadctl | .initPushColmod | .initRowCheck | .initRowSend | .initRowWait | .oriUpdate _ | .oriSend
  | .cmdSend _ => none

/-- Whether the address lies in the buffer of the draw in progress. -/
def Panel.drawCovers (p : Panel) (a : Nat) : Bool := p.drawBuffer.any (·.covers a)

/-- Whether a pixel transaction is on the bus with its BUS_ACK outstanding. -/
def Panel.sending (p : Panel) : Bool :=
  match p.bus with
  | .awaiting (.pix _ _ _) => true
  | .awaiting (.cmd _ _) | .submitted _ | .free => false

/-- The host writes address `a`: BUFFER_RACE where it lies in a pending buffer (R74, D20) or in the buffer of the draw
in progress (R76). A transfer submitted before the write is marked: its bytes are then free (log 12). -/
def Panel.noteWrite (p : Panel) (a : Nat) : Panel :=
  if p.pending.any (·.covers a) || p.drawCovers a then
    { p.setFault .bufferRace with
      pending := p.pending.map fun e => if e.covers a then { e with raced := true } else e
      sendRaced := p.sendRaced || (p.sending && p.drawCovers a) }
  else p

/-! ### The whole machine -/

/-- What a step of this machine answers. -/
abbrev Result := Host.Outcome State Fault Refusal

/-- A change of the addressed panel only. -/
def State.onPanel (s : State) (f : Panel → Panel) : State := { s with panel := f s.panel }

/-- A free draw of the environment (R12, D6, D7, D27, D31): the next listed answer, or a free value (log 4). -/
def State.ask (s : State) : Bool × State :=
  match s.answers with
  | b :: rest => (b, { s with answers := rest })
  | [] => (Config.freeAnswer s.draws, { s with draws := s.draws + 1 })

/-- A request other than create reaches REQ (R20, R238): an operation in progress or a destroyed object sets its
fault and does nothing else; with no object it is refused; otherwise the operation starts. -/
def State.accept (s : State) (start : Panel → Panel) : Result :=
  if s.panel.fsm = .idle then
    match s.panel.life with
    | .live => .next (s.onPanel start)
    | .destroyed => .next (s.onPanel (·.setFault .useAfterDestroy))
    | .absent => .refused .noObject
  else .next (s.onPanel (·.setFault .concurrentCall))

/-- A command row hands its logical transaction to the encoder, where the FSM emits that row now (R93). -/
def State.submit (s : State) (i : Instr) (t : Transaction) : Result :=
  if s.panel.nextRow = some i then .next (s.onPanel fun p => { p with bus := .submitted t })
  else .refused .notEmittedHere

/-- A transport row puts a framed transaction on BUS, where it was handed over, and waits for BUS_ACK (R110, R113). -/
def State.transmit (s : State) (i : Instr) (t : Transaction) (framed : BusTxn) : Result :=
  if s.panel.nextRow = some i then
    .next (s.onPanel fun p => { p with bus := .awaiting t, hist := p.hist ++ [.bus framed] })
  else .refused .notEmittedHere

/-- The addressed panel is set aside and an absent slot takes its place (R238: a create never acts on a live one). -/
def State.setAside (s : State) : State := { s with panel := Panel.absent, others := s.others ++ [s.panel] }

/-- The host turns to the `k`-th other panel; nothing happens where there is none. -/
def State.select (s : State) (k : Nat) : State :=
  match s.others[k]? with
  | some q => { s with panel := q, others := s.others.set k s.panel }
  | none => s

/-- The host writes a byte of its memory, which may be a pixel byte of any panel's draw or pending transfer (R74, R76). -/
def State.hostWrite (s : State) (a : Nat) (b : Byte) : State :=
  { s with mem := s.mem.write a b, panel := s.panel.noteWrite a, others := s.others.map (·.noteWrite a) }

end Sys2Proof.Machine
end

