-- ==== Sys2Proof/Machine/Commands.lean ====
section
/-! DEFINITION. The command rows (30_encoding R91 to R93): each hands the encoder one logical transaction. -/

namespace Sys2Proof.Machine

/-- SWRESET, empty payload (R92, R135). -/
def execSwreset (s : State) : Result := s.submit .swreset (.cmd s.params.cmdSwreset [])

/-- SLPOUT, empty payload (R92, R161). -/
def execSlpout (s : State) : Result := s.submit .slpout (.cmd s.params.cmdSlpout [])

/-- INVOFF, empty payload (R92, R213). -/
def execInvoff (s : State) : Result := s.submit .invoff (.cmd s.params.cmdInvoff [])

/-- INVON, empty payload (R92, R213). -/
def execInvon (s : State) : Result := s.submit .invon (.cmd s.params.cmdInvon [])

/-- DISPOFF, empty payload (R92, R214). -/
def execDispoff (s : State) : Result := s.submit .dispoff (.cmd s.params.cmdDispoff [])

/-- DISPON, empty payload (R92, R214). -/
def execDispon (s : State) : Result := s.submit .dispon (.cmd s.params.cmdDispon [])

/-- CASET with the column window (R90, R190). -/
def execCaset (xs xe : Half) (s : State) : Result :=
  s.submit (.caset xs xe) (.cmd s.params.cmdCaset (winPayload xs xe))

/-- RASET with the row window (R90, R190). -/
def execRaset (ys ye : Half) (s : State) : Result :=
  s.submit (.raset ys ye) (.cmd s.params.cmdRaset (winPayload ys ye))

/-- RAMWR: the pixel transfer (R113, R190). -/
def execRamwr (buf n : Nat) (s : State) : Result := s.submit (.ramwr buf n) (.pix s.params.cmdRamwr buf n)

/-- MADCTL with the whole orientation register, read now (R91). -/
def execMadctl (s : State) : Result := s.submit .madctl (.cmd s.params.cmdMadctl [s.panel.orient])

/-- COLMOD with the whole colour-mode register, read now (R91). -/
def execColmod (s : State) : Result := s.submit .colmod (.cmd s.params.cmdColmod [s.panel.colmodSh])

/-- An init row, sent as written, never the shadow value (R166). -/
def execVendorRow (op8 : Byte) (payload : List Byte) (s : State) : Result :=
  s.submit (.vendorRow op8 payload) (.cmd op8 payload)

end Sys2Proof.Machine
end

