-- ==== Sys2Proof/Machine/Construction.lean ====
section
/-! DEFINITION. create, reset and destroy (41_construction_reset.md). -/

namespace Sys2Proof.Machine

/-- The create arguments that must be in the supported set (R130, R234): BGR or not, and the pixel format. -/
def supportedConfig (colorOrder bitsPerPixel : Byte) : Option (Bool × Bpp) :=
  match colorIsBgr colorOrder, pixelFormat bitsPerPixel with
  | some bgr, some fmt => some (bgr, fmt)
  | _, _ => none

/-- The writes of a successful create, in R130's order (R42). -/
def Panel.construct (p : Panel) (par : Config.Params) (v : Variant) (line : Option ResetLine) (bgr : Bool) (fmt : Bpp)
    (table : Option (List InitRow)) : Panel :=
  { p with
    cfgVariant := v
    cfgRst     := line
    cfgTable   := table.getD (Config.initTableDefault par.panelModel)
    bpp        := fmt
    colmodSh   := colmodOf fmt
    orient     := orientCreate par bgr
    xGap       := 0
    yGap       := 0
    ovr        := Overrides.none
    resetDone  := false
    faults     := FaultBits.none
    diag       := []
    pending    := []
    bus        := .free
    hold       := none
    sendRaced  := false
    fsm        := .idle
    life       := .live }

/-- The reset line, if one is configured, is claimed as an output; the outcome is free (R130, D7). -/
def State.claimLine (s : State) : Option ResetLine → Bool × State
  | none => (true, s)
  | some l =>
    (s.ask.1, s.ask.2.onPanel fun p =>
      { p with lineHeld := if s.ask.1 then some l.gpio else p.lineHeld, hist := p.hist ++ [.claim l.gpio s.ask.1] })

/-- A held reset line is released (R130, R138). -/
def Panel.releaseLine (p : Panel) : Option ResetLine → Panel
  | none => p
  | some l => { p with lineHeld := none, hist := p.hist ++ [.release l.gpio] }

/-- After a create the level of a claimed line is any value until the first reset (R132, D31). -/
def State.freeLevel (s : State) : Option ResetLine → State
  | none => s
  | some _ => s.ask.2.onPanel fun p => { p with pin := s.ask.1 }

/-- The rest of R130 once the line is claimed: the configuration check, then the writes. STATUS OK goes into H, as R41
and V-C1 have it, although R130's own example calls H empty after create: DESIGN CHOICE, log 20. -/
def State.configure (s : State) (v : Variant) (line : Option ResetLine) (colorOrder bitsPerPixel : Byte)
    (table : Option (List InitRow)) : State :=
  match supportedConfig colorOrder bitsPerPixel with
  | none => s.onPanel fun p => (p.releaseLine line).finish .unsupportedConfig
  | some (bgr, fmt) =>
    (s.freeLevel line).onPanel fun p => (p.construct s.params v line bgr fmt table).finish .ok

/-- R130 on an absent slot, with the priority of R236. Where it ends with an error the slot stays absent (R131). -/
def State.createHere (s : State) (transport : Option Variant) (line : Option ResetLine) (colorOrder bitsPerPixel : Byte)
    (table : Option (List InitRow)) : State :=
  match transport with
  | none => s.onPanel (·.finish .invalidArgument)
  | some v =>
    if s.ask.1 then
      if (s.ask.2.claimLine line).1 then (s.ask.2.claimLine line).2.configure v line colorOrder bitsPerPixel table
      else (s.ask.2.claimLine line).2.onPanel (·.finish .resetLineError)
    else s.ask.2.onPanel (·.finish .outOfMemory)

/-- `create` (R130). On a live object a create makes another one (R238); after destroy it is a use after destroy. -/
def execCreate (transport : Option Variant) (line : Option ResetLine) (colorOrder bitsPerPixel : Byte)
    (table : Option (List InitRow)) (s : State) : Result :=
  if s.params.distinct then
    match s.panel.life with
    | .absent => .next (s.createHere transport line colorOrder bitsPerPixel table)
    | .live => .next (s.setAside.createHere transport line colorOrder bitsPerPixel table)
    | .destroyed => .next (s.onPanel (·.setFault .useAfterDestroy))
  else .refused .commandsNotDistinct

/-- RST_ASSERT: `SetReset(true)`, then the first hold (R134). -/
def Panel.assertReset (p : Panel) : Panel := { p.setReset true with fsm := .rstHold1 }

/-- RST_DEASSERT: `SetReset(false)`, then the second hold (R134). -/
def Panel.deassertReset (p : Panel) : Panel := { p.setReset false with fsm := .rstHold2 }

/-- `reset` (R133): the path depends only on CFG_RST; the FSM takes its first state (log 1). -/
def execReset (s : State) : Result :=
  s.accept fun p => { p with fsm := if p.cfgRst.isSome then .rstAssert else .rstSwreset }

/-- `destroy` (R138): releases the line, emits nothing on the bus, waits for nothing. -/
def execDestroy (s : State) : Result :=
  s.accept fun p => Panel.finish { p.releaseLine p.cfgRst with life := .destroyed } .ok

end Sys2Proof.Machine
end

