-- ==== Sys2Proof/Machine/Orientation.lean ====
section
/-! DEFINITION. The orientation controller and the binary commands (44_orientation.md). -/

namespace Sys2Proof.Machine

open Config (Params)

/-- State ORI_UPDATE (R211, R212): the shadow is written before the transaction (D14). -/
def Panel.updateOrient (par : Params) (p : Panel) (c : OrientCall) : Panel :=
  { p with orient := orientAfter par p.orient c, fsm := .oriSend }

/-- `mirror` (R211): the FSM takes ORI_UPDATE with the operands (log 1). -/
def execMirror (x y : Bool) (s : State) : Result :=
  s.accept fun p => { p with fsm := .oriUpdate (.mirror x y) }

/-- `swap_xy` (R212): the FSM takes ORI_UPDATE with the operand (log 1). -/
def execSwapXy (b : Bool) (s : State) : Result :=
  s.accept fun p => { p with fsm := .oriUpdate (.swap b) }

/-- `invert_color` (R213): no shadow state; CMD_SEND sends INVON or INVOFF. -/
def execInvertColor (on : Bool) (s : State) : Result :=
  s.accept fun p => { p with fsm := .cmdSend (if on then .invOn else .invOff) }

/-- `display_on_off` (R214): no shadow state; CMD_SEND sends DISPON or DISPOFF. -/
def execDisplayOnOff (on : Bool) (s : State) : Result :=
  s.accept fun p => { p with fsm := .cmdSend (if on then .dispOn else .dispOff) }

end Sys2Proof.Machine
end

