-- ==== Sys2Proof/Machine/Requests.lean ====
section
/-! DEFINITION. The op codes that spell no operation (30_encoding R82). -/

namespace Sys2Proof.Machine

/-- Op codes 0xA and 0xB: "the model refuses it at the port" (R82). -/
def execReqInvalid (low : BitVec 1) (_s : State) : Result := .refused (.spellsNoOperation (0b101#3 ++ low))

/-- Op codes 0xC to 0xF: "the model refuses it at the port" (R82). -/
def execReqInvalidHi (low : BitVec 2) (_s : State) : Result := .refused (.spellsNoOperation (0b11#2 ++ low))

end Sys2Proof.Machine
end

