-- ==== Sys2Proof/Machine/Sequencer.lean ====
section
/-! DEFINITION. The init sequencer (42_init_sequencer.md). -/

namespace Sys2Proof.Machine

open Config (Params)

/-- `init` (R160): the entry; the sequencer's states follow. -/
def execInit (s : State) : Result :=
  s.accept fun p =>
    { p with
      faults := if p.resetDone then p.faults else p.faults.set .callerError
      ovr := Overrides.none
      fsm := .initSlpout }

/-- The orientation override of R165: shadow, and a diagnostic at the first one of this init. -/
def Panel.overrideMadctl (p : Panel) (op v : Byte) : Panel :=
  if p.ovr.madctl then { p with orient := v }
  else { p with orient := v, ovr := { p.ovr with madctl := true }, diag := p.diag ++ [op], hist := p.hist ++ [.diag op] }

/-- The colour-mode override of R165. -/
def Panel.overrideColmod (p : Panel) (op v : Byte) : Panel :=
  if p.ovr.colmod then { p with colmodSh := v }
  else { p with colmodSh := v, ovr := { p.ovr with colmod := true }, diag := p.diag ++ [op], hist := p.hist ++ [.diag op] }

/-- R165's override detection for one row; the FSM then sends the row, or ends with InitTableError (D16). -/
def Panel.checkRow (par : Params) (p : Panel) (r : InitRow) : Panel :=
  if r.opcode = par.cmdMadctl ∨ r.opcode = par.cmdColmod then
    match r.payload with
    | [] => (p.setFault .tableDefect).finish (.initTableError r.opcode)
    | v :: _ =>
      { (if r.opcode = par.cmdMadctl then p.overrideMadctl r.opcode v else p.overrideColmod r.opcode v) with
        fsm := .initRowSend }
  else { p with fsm := .initRowSend }

/-- State INIT_ROW_CHECK (R164, R165, R168); none where ROW lies beyond the table. -/
def Panel.rowCheck (par : Params) (p : Panel) : Option Panel :=
  if p.row = p.cfgTable.length then some (p.finish .ok)
  else (p.cfgTable[p.row]?).map (Panel.checkRow par p)

/-- State INIT_ROW_WAIT (R167): a Wait only for a positive delay; none where ROW lies beyond the table. -/
def Panel.rowWait (p : Panel) : Option Panel :=
  (p.cfgTable[p.row]?).map fun r =>
    if 0 < r.delayMs then p.startHold r.delayMs else { p with row := p.row + 1, fsm := .initRowCheck }

end Sys2Proof.Machine
end

