-- ==== Sys2Proof/Machine/Transport.lean ====
section
/-! DEFINITION. The bus transport (40_transport.md): framing, BUS_ACK, and the completion of pending transfers. -/

namespace Sys2Proof.Machine

/-- SendCommand under QuadAddressed (R87, R110). -/
def execSendCommandQuad (op8 : Byte) (payload : List Byte) (s : State) : Result :=
  s.transmit (.sendCommandQuad op8 payload) (.cmd op8 payload) (.quadCmd (addressWord Config.qspiOpWrite op8) payload)

/-- SendPixels under QuadAddressed (R88, R113). -/
def execSendPixelsQuad (op8 : Byte) (buf n : Nat) (s : State) : Result :=
  s.transmit (.sendPixelsQuad op8 buf n) (.pix op8 buf n) (.quadPix (addressWord Config.qspiOpColor op8) buf n)

/-- SendCommand under Plain (R84, R110). -/
def execSendCommandPlain (op8 : Byte) (payload : List Byte) (s : State) : Result :=
  s.transmit (.sendCommandPlain op8 payload) (.cmd op8 payload) (.plainCmd op8 payload)

/-- SendPixels under Plain (R85, R113). -/
def execSendPixelsPlain (op8 : Byte) (buf n : Nat) (s : State) : Result :=
  s.transmit (.sendPixelsPlain op8 buf n) (.pix op8 buf n) (.plainPix op8 buf n)

/-- The read word: "No operation of this block ever emits it" (R69), and the spec gives a read no effect. -/
def execQspiRead (_low : BitVec 24) (_s : State) : Result := .refused .neverEmitted

/-- R110, D26: a payload longer than `MAX_PAYLOAD`, which the Transport must answer with err. -/
def tooLong (par : Config.Params) : Transaction → Bool
  | .cmd _ payload =>
    match par.maxPayload with
    | some limit => decide (limit < payload.length)
    | none => false
  | .pix _ _ _ => false

/-- The Transport answers the transaction on the bus (R110, R113, D27). -/
def State.answer (s : State) (t : Transaction) : State :=
  if tooLong s.params t then s.onPanel (·.acknowledge t false)
  else s.ask.2.onPanel (·.acknowledge t s.ask.1)

/-- The Transport completes the oldest pending transfer (R115): its bytes are read in order and delivered, and the
entry goes. Bytes of a raced buffer are free (R74). Where a byte is not there the model has no move (R193, U6). A raced
buffer that is also short is delivered as a raced one, n free bytes: DESIGN CHOICE, log 12. -/
def State.complete (s : State) : Result :=
  match s.panel.pending with
  | [] => .next s
  | e :: rest =>
    if e.raced then
      .next { s with
        panel := { s.panel with
          pending := rest
          hist := s.panel.hist ++ [.pixels e.buf ((List.range e.n).map fun k => Config.racedByte (s.draws + k))] }
        draws := s.draws + e.n }
    else
      match Memory.readMany s.mem e.buf e.n with
      | some bytes =>
        .next (s.onPanel fun p => { p with pending := rest, hist := p.hist ++ [.pixels e.buf bytes] })
      | none => .refused .bufferTooShort

/-! ### What the bus carries (R62, R84, R85, R87, R88) -/

/-- One 8-bit transfer of the logical bus. -/
inductive Transfer
  | command (b : Byte)   -- Plain: the command transfer
  | param (b : Byte)     -- a parameter byte
  | address (b : Byte)   -- QuadAddressed: a byte of the address word
  | data (b : Byte)      -- a pixel byte
deriving DecidableEq, Repr

/-- How a variant frames a logical transaction. -/
def frame : Variant → Transaction → BusTxn
  | .plain, .cmd op p => .plainCmd op p
  | .plain, .pix op buf n => .plainPix op buf n
  | .quadAddressed, .cmd op p => .quadCmd (addressWord Config.qspiOpWrite op) p
  | .quadAddressed, .pix op buf n => .quadPix (addressWord Config.qspiOpColor op) buf n

/-- The logical content of a transaction on the bus: the command byte of a word is its bits 15:8 (R86, R117). -/
def BusTxn.logical : BusTxn → Transaction
  | .plainCmd op p => .cmd op p
  | .plainPix op buf n => .pix op buf n
  | .quadCmd a p => .cmd (a.extractLsb' 8 8) p
  | .quadPix a buf n => .pix (a.extractLsb' 8 8) buf n

/-- The transfers of a transaction, given the pixel bytes its data phase delivers. -/
def BusTxn.wire (data : List Byte) : BusTxn → List Transfer
  | .plainCmd op p => .command op :: p.map .param
  | .plainPix op _ _ => .command op :: data.map .data
  | .quadCmd a p => (wordBytes a).map .address ++ p.map .param
  | .quadPix a _ _ => (wordBytes a).map .address ++ data.map .data

/-- Bus order (R71): the transfers of a list of accepted transactions, in issue order, each pixel transaction taking
the next of the data phases the Transport has delivered (R115: in submission order). It stops at a pixel transaction
whose data is still to come, since nothing after it is on the bus before it. -/
def busOrder : List BusTxn → List (List Byte) → List Transfer
  | [], _ => []
  | .plainCmd op p :: ts, ds => BusTxn.wire [] (.plainCmd op p) ++ busOrder ts ds
  | .quadCmd a p :: ts, ds => BusTxn.wire [] (.quadCmd a p) ++ busOrder ts ds
  | .plainPix op buf n :: ts, d :: ds => BusTxn.wire d (.plainPix op buf n) ++ busOrder ts ds
  | .quadPix a buf n :: ts, d :: ds => BusTxn.wire d (.quadPix a buf n) ++ busOrder ts ds
  | .plainPix op buf n :: _, [] => BusTxn.wire [] (.plainPix op buf n)
  | .quadPix a buf n :: _, [] => BusTxn.wire [] (.quadPix a buf n)

/-- The transactions of a history that were acknowledged ok, in issue order. -/
def acceptedTxns : List Event → List BusTxn
  | [] => []
  | .bus t :: h => if (h.filterMap fun e => match e with | .ack ok => some ok | _ => none).head? = some true
      then t :: acceptedTxns h else acceptedTxns h
  | _ :: h => acceptedTxns h

/-- The data phases of a history, in the order delivered. -/
def dataPhases (h : List Event) : List (List Byte) :=
  h.filterMap fun e => match e with | .pixels _ bytes => some bytes | _ => none

/-- Everything a history has put on the bus, in bus order (R71, R277). -/
def busStream (h : List Event) : List Transfer := busOrder (acceptedTxns h) (dataPhases h)

end Sys2Proof.Machine
end

