-- ==== Sys2Proof/Machine/WindowWriter.lean ====
section
/-! DEFINITION. The window/bitmap writer (43_window_writer.md). -/

namespace Sys2Proof.Machine

/-- State DRAW_CHECK (R190): the three contract checks, before any transaction (R237). -/
def Panel.checkDraw (p : Panel) (r : DrawArgs) : Panel :=
  match windowOf p.bpp p.xGap p.yGap r with
  | none => (p.setFault .contract).finish .contractViolation
  | some w => { p with fsm := .drawCaset w }

/-- `draw` (R190): the FSM takes DRAW_CHECK with the operands (log 1). -/
def execDraw (xStart yStart xEnd yEnd : Word) (pixels : Nat) (s : State) : Result :=
  s.accept fun p => { p with fsm := .drawCheck ⟨xStart, yStart, xEnd, yEnd, pixels⟩, sendRaced := false }

/-- `set_gap` (R195): local state only. -/
def execSetGap (x y : Word) (s : State) : Result :=
  s.accept fun p => Panel.finish { p with xGap := x, yGap := y } .ok

end Sys2Proof.Machine
end

