-- ==== Sys2Proof/Machine/Dispatch.lean ====
section
/-! DEFINITION. exec: one arm per constructor of Instr, each one call of its meaning. -/

namespace Sys2Proof.Machine

def exec (i : Instr) (s : State) : Host.Outcome State Fault Refusal :=
  match i with
  | .create t l co bpp tab => Sys2Proof.Machine.execCreate t l co bpp tab s
  | .reset => Sys2Proof.Machine.execReset s
  | .init => Sys2Proof.Machine.execInit s
  | .draw xs ys xe ye buf => Sys2Proof.Machine.execDraw xs ys xe ye buf s
  | .mirror x y => Sys2Proof.Machine.execMirror x y s
  | .swapXy b => Sys2Proof.Machine.execSwapXy b s
  | .invertColor on => Sys2Proof.Machine.execInvertColor on s
  | .displayOnOff on => Sys2Proof.Machine.execDisplayOnOff on s
  | .setGap x y => Sys2Proof.Machine.execSetGap x y s
  | .destroy => Sys2Proof.Machine.execDestroy s
  | .reqInvalid low => Sys2Proof.Machine.execReqInvalid low s
  | .reqInvalidHi low => Sys2Proof.Machine.execReqInvalidHi low s
  | .sendCommandQuad op p => Sys2Proof.Machine.execSendCommandQuad op p s
  | .sendPixelsQuad op buf n => Sys2Proof.Machine.execSendPixelsQuad op buf n s
  | .qspiRead low => Sys2Proof.Machine.execQspiRead low s
  | .sendCommandPlain op p => Sys2Proof.Machine.execSendCommandPlain op p s
  | .sendPixelsPlain op buf n => Sys2Proof.Machine.execSendPixelsPlain op buf n s
  | .swreset => Sys2Proof.Machine.execSwreset s
  | .slpout => Sys2Proof.Machine.execSlpout s
  | .invoff => Sys2Proof.Machine.execInvoff s
  | .invon => Sys2Proof.Machine.execInvon s
  | .dispoff => Sys2Proof.Machine.execDispoff s
  | .dispon => Sys2Proof.Machine.execDispon s
  | .caset xs xe => Sys2Proof.Machine.execCaset xs xe s
  | .raset ys ye => Sys2Proof.Machine.execRaset ys ye s
  | .ramwr buf n => Sys2Proof.Machine.execRamwr buf n s
  | .madctl => Sys2Proof.Machine.execMadctl s
  | .colmod => Sys2Proof.Machine.execColmod s
  | .vendorRow op p => Sys2Proof.Machine.execVendorRow op p s

end Sys2Proof.Machine
end

