-- ==== Sys2Proof/Machine/Run.lean ====
section
/-! DEFINITION. What a step does: the request fetched at REQ, the rows and actions of the FSM (R30), the answers of the
Transport and the Timer, and the environment's moves (R15, R243). -/

namespace Sys2Proof.Machine

/-- A record at REQ: decoded, then executed (R80, R82). -/
def State.present (s : State) (record : List Byte) : Result :=
  match decode s.params .req record with
  | .ok i => exec i s
  | .error why => .refused (.undecodable why)

/-- IDLE: the serialised host's next request, if it has one (R40, R276). -/
def State.fetchRequest (s : State) : Result :=
  match s.reqs with
  | [] => .next s
  | r :: rest => State.present { s with reqs := rest } r

/-- The FSM states that need no row of the table (R30, R134, R135, R162, R164, R167). The sending states stand here
only for INIT_ROW_SEND with ROW beyond the table; in every other one `Panel.nextRow` gives a row. -/
def State.fsmAction (s : State) : Result :=
  match s.panel.fsm with
  | .idle => s.fetchRequest
  | .rstAssert => .next (s.onPanel Panel.assertReset)
  | .rstHold1 => .next (s.onPanel (·.startHold Config.tRstAssertMs))
  | .rstDeassert => .next (s.onPanel Panel.deassertReset)
  | .rstHold2 => .next (s.onPanel (·.startHold Config.tRstReleaseMs))
  | .rstSwhold => .next (s.onPanel (·.startHold Config.tSwresetMs))
  | .initSlpwait => .next (s.onPanel (·.startHold Config.tSlpoutMs))
  | .initRowCheck =>
    match s.panel.rowCheck s.params with
    | some p => .next { s with panel := p }
    | none => .fault .rowOutOfRange
  | .initRowWait =>
    match s.panel.rowWait with
    | some p => .next { s with panel := p }
    | none => .fault .rowOutOfRange
  | .drawCheck r => .next (s.onPanel (·.checkDraw r))
  | .oriUpdate c => .next (s.onPanel (Panel.updateOrient s.params · c))
  | .rstSwreset | .initSlpout | .initPushMadctl | .initPushColmod | .initRowSend | .drawCaset _ | .drawRaset _
  | .drawRamwr _ | .oriSend | .cmdSend _ => .fault .rowOutOfRange

/-- The foreground: the row the controller runs next; else the BUS_ACK or the Timer it waits for; else its FSM
state's own action. -/
def State.foreground (s : State) : Result :=
  match s.panel.nextRow with
  | some i => exec i s
  | none =>
    match s.panel.bus, s.panel.hold with
    | .awaiting t, _ => .next (s.answer t)
    | _, some ms => .next (s.onPanel (·.endHold ms))
    | _, none => s.fsmAction

/-- Whether the foreground has a move: it has none in IDLE with no request waiting. -/
def State.foregroundEnabled (s : State) : Bool :=
  !(s.panel.fsm == .idle && s.panel.bus == .free && s.panel.hold == none && s.reqs == [])

/-- Where no move is listed: the agent that can move does; where both the foreground and the Transport's completion
can, the choice is free (R243, U23; log 3). -/
def State.schedule (s : State) : Result :=
  if s.panel.pending = [] then s.foreground
  else if s.foregroundEnabled then
    if Config.completesNow s.draws then State.complete { s with draws := s.draws + 1 }
    else State.foreground { s with draws := s.draws + 1 }
  else s.complete

/-- A listed move of the environment. -/
def State.deliver (s : State) : Input → Result
  | .turn => s.foreground
  | .complete => s.complete
  | .request record => s.present record
  | .write a b => .next (s.hostWrite a b)
  | .select k => .next (s.select k)
  | .freshPanel => .next s.setAside

/-- One step of the whole machine. -/
def State.advance (s : State) : Result :=
  match s.inputs with
  | [] => s.schedule
  | m :: rest => State.deliver { s with inputs := rest } m

/-! ### Placing one instruction (log 11) -/

/-- A live object whose FSM is about to emit a row: how `withFetchWord` selects a row the host cannot request. -/
def Panel.poised (p : Panel) (f : Fsm) : Panel := { p with life := .live, fsm := f, bus := .free, hold := none }

/-- The same, with a transaction handed to the encoder from INIT_ROW_SEND. -/
def Panel.poisedRow (p : Panel) (v : Variant) (op : Byte) (payload : List Byte) : Panel :=
  { p.poised .initRowSend with cfgVariant := v, cfgTable := [⟨op, payload, 0⟩], row := 0 }

/-- The panel from which the next step runs the row `i`. -/
def Panel.placeRow (p : Panel) : Instr → Panel
  | .swreset => p.poised .rstSwreset
  | .slpout => p.poised .initSlpout
  | .invoff => p.poised (.cmdSend .invOff)
  | .invon => p.poised (.cmdSend .invOn)
  | .dispoff => p.poised (.cmdSend .dispOff)
  | .dispon => p.poised (.cmdSend .dispOn)
  | .caset xs xe => p.poised (.drawCaset ⟨xs, xe, 0, 0, 0, 0⟩)
  | .raset ys ye => p.poised (.drawRaset ⟨0, 0, ys, ye, 0, 0⟩)
  | .ramwr buf n => p.poised (.drawRamwr ⟨0, 0, 0, 0, buf, n⟩)
  | .madctl => p.poised .oriSend
  | .colmod => p.poised .initPushColmod
  | .vendorRow op payload => p.poisedRow p.cfgVariant op payload
  | .sendCommandQuad op payload => { p.poisedRow .quadAddressed op payload with bus := .submitted (.cmd op payload) }
  | .sendCommandPlain op payload => { p.poisedRow .plain op payload with bus := .submitted (.cmd op payload) }
  | .sendPixelsQuad op buf n =>
    { p.poised (.drawRamwr ⟨0, 0, 0, 0, buf, n⟩) with cfgVariant := .quadAddressed, bus := .submitted (.pix op buf n) }
  | .sendPixelsPlain op buf n =>
    { p.poised (.drawRamwr ⟨0, 0, 0, 0, buf, n⟩) with cfgVariant := .plain, bus := .submitted (.pix op buf n) }
  | .create _ _ _ _ _ | .reset | .init | .draw _ _ _ _ _ | .mirror _ _ | .swapXy _ | .invertColor _
  | .displayOnOff _ | .setGap _ _ | .destroy | .reqInvalid _ | .reqInvalidHi _ | .qspiRead _ => p

/-- A request needs an object to act on: an absent slot becomes a live one, but for a create (R20). -/
def Panel.placeRequest (p : Panel) : Instr → Panel
  | .create _ _ _ _ _ => p
  | _ => if p.life = .absent then { p with life := .live } else p

/-- The state whose next step runs `i`: a request is presented at REQ; any other row is the one the FSM is about to
emit. The read word is never emitted (R69); its record is presented at REQ, which refuses it. -/
def State.place (s : State) (i : Instr) : State :=
  match i.format with
  | .req => { s with panel := s.panel.placeRequest i, inputs := .request (encode s.params i) :: s.inputs }
  | .quadWord | .plainCmd | .plainPix | .busCmd | .tableRow =>
    match i with
    | .qspiRead _ => { s with inputs := .request (encode s.params i) :: s.inputs }
    | _ => { s with panel := s.panel.placeRow i, inputs := .turn :: s.inputs }

end Sys2Proof.Machine
end

