-- ==== Sys2Proof/Machine/Step.lean ====
section
/-! DEFINITION. The step, and the placing of one table word where the next step runs it. -/

namespace Sys2Proof.Machine

/-- One step of the machine: a listed move of the environment, or the move of the agent that can move. -/
def step (s : State) : Host.Outcome State Fault Refusal := s.advance

/-- `s` with the instruction of a table word where the next step runs it (log 11). -/
def State.withFetchWord (s : State) (nbits w : Nat) : State :=
  match decodeTableWord nbits w with
  | some i => s.place i
  | none => { s with inputs := .request (tableBytes nbits w) :: s.inputs }

end Sys2Proof.Machine
end

