-- ==== Sys2Proof/Safety.lean ====
section
/-! DEFINITION. What claims are stated in: the premise "FAULT is empty" (R32), when a run is over (R115), and the
invariant of the machine's states. -/

namespace Sys2Proof.Machine

open Config (Params)

/-- "A claim about the block takes 'FAULT is empty' as a premise" (R32). -/
abbrev Panel.faultFree (p : Panel) : Prop := p.faults = FaultBits.none

/-- "A run with PENDING not empty is not over" (R115). -/
abbrev State.settled (s : State) : Prop :=
  s.panel.fsm = .idle ∧ s.reqs = [] ∧ s.inputs = [] ∧ ∀ p ∈ s.panel :: s.others, p.pending = []

/-- A request would be accepted on the addressed object (R20, R30: LIVE and IDLE), and nothing is under way. -/
abbrev State.ready (s : State) : Prop :=
  s.panel.life = .live ∧ s.panel.fsm = .idle ∧ s.panel.bus = .free ∧ s.panel.hold = none

/-- The next `k` moves listed are the foreground's own, and `moves` follow: nothing comes between, whatever is pending. -/
abbrev State.turns (s : State) (k : Nat) (moves : List Input) : Prop := s.inputs = List.replicate k .turn ++ moves

/-- The transaction an FSM state sends (R93, R166, R190). -/
def Panel.transaction (par : Params) (p : Panel) : Option Transaction :=
  match p.fsm with
  | .rstSwreset => some (.cmd par.cmdSwreset [])
  | .initSlpout => some (.cmd par.cmdSlpout [])
  | .initPushMadctl => some (.cmd par.cmdMadctl [p.orient])
  | .initPushColmod => some (.cmd par.cmdColmod [p.colmodSh])
  | .initRowSend => (p.cfgTable[p.row]?).map fun r => .cmd r.opcode r.payload
  | .drawCaset w => some (.cmd par.cmdCaset (winPayload w.xs w.xe))
  | .drawRaset w => some (.cmd par.cmdRaset (winPayload w.ys w.ye))
  | .drawRamwr w => some (.pix par.cmdRamwr w.buf w.n)
  | .oriSend => some (.cmd par.cmdMadctl [p.orient])
  | .cmdSend c => some (.cmd (c.byte par) [])
  | .idle | .rstAssert | .rstHold1 | .rstDeassert | .rstHold2 | .rstSwhold | .initSlpwait | .initRowCheck
  | .initRowWait | .drawCheck _ | .oriUpdate _ => none

/-- The Wait an FSM state holds for (R281). -/
def Panel.holdTime (p : Panel) : Option Nat :=
  match p.fsm with
  | .rstHold1 => some Config.tRstAssertMs
  | .rstHold2 => some Config.tRstReleaseMs
  | .rstSwhold => some Config.tSwresetMs
  | .initSlpwait => some Config.tSlpoutMs
  | .initRowWait => (p.cfgTable[p.row]?).map (·.delayMs)
  | .idle | .rstAssert | .rstDeassert | .rstSwreset | .initSlpout | .initPushMadctl | .initPushColmod
  | .initRowCheck | .initRowSend | .drawCheck _ | .drawCaset _ | .drawRaset _ | .drawRamwr _ | .oriUpdate _
  | .oriSend | .cmdSend _ => none

/-- What an FSM state relies on: ROW inside the table (R31), the reset path CFG_RST selects (R133), a window that is
not empty and a length that fits (R190, R191). -/
def Panel.fsmFits (p : Panel) : Prop :=
  match p.fsm with
  | .rstAssert | .rstHold1 | .rstDeassert | .rstHold2 => p.cfgRst.isSome
  | .rstSwreset | .rstSwhold => p.cfgRst = none
  | .initRowCheck => p.row ≤ p.cfgTable.length
  | .initRowSend | .initRowWait => p.row < p.cfgTable.length
  | .drawCaset w | .drawRaset w | .drawRamwr w =>
      w.xs ≤ w.xe ∧ w.ys ≤ w.ye ∧ 0 < w.n ∧ w.n < 2 ^ Config.lenBits
  | .idle | .initSlpout | .initSlpwait | .initPushMadctl | .initPushColmod | .drawCheck _ | .oriUpdate _ | .oriSend
  | .cmdSend _ => True

/-- A payload of `n` bytes is within `MAX_PAYLOAD` (R8, R110). -/
abbrev payloadFits (par : Params) (n : Nat) : Prop := ∀ limit, par.maxPayload = some limit → n ≤ limit

/-- The requests that act on the addressed object: every request but create (R20, R238). -/
def needsObject : Instr → Bool
  | .reset => true
  | .init => true
  | .draw _ _ _ _ _ => true
  | .mirror _ _ => true
  | .swapXy _ => true
  | .invertColor _ => true
  | .displayOnOff _ => true
  | .setGap _ _ => true
  | .destroy => true
  | .create _ _ _ _ _ | .reqInvalid _ | .reqInvalidHi _ | .sendCommandQuad _ _ | .sendPixelsQuad _ _ _ | .qspiRead _
  | .sendCommandPlain _ _ | .sendPixelsPlain _ _ _ | .swreset | .slpout | .invoff | .invon | .dispoff | .dispon
  | .caset _ _ | .raset _ _ | .ramwr _ _ | .madctl | .colmod | .vendorRow _ _ => false

/-- `CMD_MADCTL` and `CMD_COLMOD`, the commands the controller manages itself (R14 "Override"). -/
def managed (par : Params) (op : Byte) : Bool := op == par.cmdMadctl || op == par.cmdColmod

/-- The first payload byte of the last row with command byte `op`, or `v` if the table has none (R170). -/
def lastOverride (op : Byte) (v : Byte) : List InitRow → Byte
  | [] => v
  | r :: rs => lastOverride op (if r.opcode = op then r.payload.headD v else v) rs

/-- The managed commands of a table in order of first appearance, less those already seen (R165, R170). -/
def firstOverrides (par : Params) (seen : List Byte) : List InitRow → List Byte
  | [] => []
  | r :: rs =>
    if managed par r.opcode && !seen.contains r.opcode then r.opcode :: firstOverrides par (r.opcode :: seen) rs
    else firstOverrides par seen rs

/-- How many steps a successful `init` over a table takes after its first: SLPOUT 3 and its Wait 2, the two pushes 3
each; for a row its check, 3 for its transaction and its wait state, which a positive delay makes 2; the last check. -/
def initSteps : List InitRow → Nat
  | [] => 12
  | r :: rs => (if 0 < r.delayMs then 6 else 5) + initSteps rs

/-- The Waits of a history: their starts and ends, in order. -/
def waitEvents (h : List Event) : List Event :=
  h.filter fun e => match e with
    | .waitStart _ | .waitEnd _ => true
    | .bus _ | .ack _ | .claim _ _ | .release _ | .setReset _ _ | .diag _ | .status _ | .pixels _ _ => false

/-- The Wait events of the rows of an init table: none for a delay of 0 (R167). -/
def rowWaits (table : List InitRow) : List Event :=
  table.flatMap fun r => if 0 < r.delayMs then [.waitStart r.delayMs, .waitEnd r.delayMs] else []

/-- Whether a BUS transaction of the history still lacks its BUS_ACK, given whether one did before it. -/
def unanswered : Bool → List Event → Bool
  | b, [] => b
  | _, .bus _ :: h => unanswered true h
  | _, .ack _ :: h => unanswered false h
  | b, .claim _ _ :: h | b, .release _ :: h | b, .setReset _ _ :: h | b, .waitStart _ :: h | b, .waitEnd _ :: h
  | b, .diag _ :: h | b, .status _ :: h | b, .pixels _ _ :: h => unanswered b h

/-- What stays and what only grows in an object from `p` to `q`: the configuration (R21, R75, R116); the history (R41)
and DIAG (R35); the fault bits (R32). -/
structure Panel.Continues (q p : Panel) : Prop where
  cfgVariant : q.cfgVariant = p.cfgVariant
  cfgRst     : q.cfgRst = p.cfgRst
  cfgTable   : q.cfgTable = p.cfgTable
  bpp        : q.bpp = p.bpp
  hist       : p.hist <+: q.hist
  diag       : p.diag <+: q.diag
  faults     : ∀ f, p.faults.has f = true → q.faults.has f = true

/-- The BUS transactions of a history, in order. -/
def busEvents (h : List Event) : List BusTxn :=
  h.filterMap fun e => match e with | .bus t => some t | _ => none

/-- Whether a transaction has a data phase to come (R85, R88). -/
def BusTxn.isPixels : BusTxn → Bool
  | .plainCmd _ _ | .quadCmd _ _ => false
  | .plainPix _ _ _ | .quadPix _ _ _ => true

/-- The invariant of one object. -/
structure Panel.Inv (par : Params) (p : Panel) : Prop where
  /-- no operation runs on an object that is not LIVE (R20) -/
  idleUnlessLive : p.life ≠ .live → p.fsm = .idle
  /-- an absent slot holds no register written, no transfer pending and no fault (R131) -/
  absentIsClean : p.life = .absent → p.pending = [] ∧ p.faults = FaultBits.none
  /-- the reset line is held exactly by a LIVE object that has one (R130, R131, R138) -/
  lineHeld : p.lineHeld = if p.life = .live then p.cfgRst.map (·.gpio) else none
  /-- a transaction under way is the one the FSM state sends (R93) -/
  busFits : match p.bus with
    | .free => True
    | .submitted t => p.transaction par = some t ∧ p.hold = none
    | .awaiting t => p.transaction par = some t ∧ p.hold = none
  /-- a Wait under way is the one the FSM state holds for (R281) -/
  holdFits : p.hold = none ∨ p.hold = p.holdTime
  fsmFits : p.fsmFits
  /-- a BUS transaction lacks its BUS_ACK exactly while one is awaited (R72) -/
  answered : unanswered false p.hist = match p.bus with
    | .awaiting _ => true
    | .free | .submitted _ => false
  /-- every pending transfer has a length that fits and is not empty (R113, R191) -/
  pendingFits : ∀ e ∈ p.pending, 0 < e.n ∧ e.n < 2 ^ Config.lenBits

/-- The invariant of the machine. -/
structure State.Inv (s : State) : Prop where
  memory : Memory.wf s.mem = true
  panel  : s.panel.Inv s.params
  others : ∀ p ∈ s.others, p.Inv s.params

end Sys2Proof.Machine
end

