-- ==== Sys2Proof/Certificates/Slice0/Obligations.lean ====
section
/-! DEFINITION. The statements for the provers. Where one names an answer of the environment it lists it in
`answers`; the statements about a free value hold for every value of it. -/

open Sys2Proof Sys2Proof.Machine Sys2Proof.Config

/-! ### Encodings -/

/-- R80, R81, R84 to R88, R93: the record the encoder writes is read back as the same instruction, every operand at
every value. The byte layout of the operands is the model's (log 9); R94 is the premise on the command bytes. -/
def Obligations.EveryInstructionDecodesAsEncoded : Prop :=
  ∀ (par : Params) (i : Instr), par.distinct → i.wf = true → decode par i.format (encode par i) = .ok i

/-- R113 and the formats: whatever the decoder accepts is well-formed and of the format it was presented as. -/
def Obligations.DecodedInstructionsAreWellFormed : Prop :=
  ∀ (par : Params) (f : Format) (bs : List Byte) (i : Instr), decode par f bs = .ok i → i.wf = true ∧ i.format = f

/-- The op codes of R80, the words of E5 and R93's default command bytes, written out from the spec. The operands'
bytes and the default command bytes are the model's and the spec's choices (log 9, log 14). -/
def Obligations.WordsOfTheSpecDecode : Prop :=
  decode Params.default .req [0x01] = .ok .reset ∧
  decode Params.default .req [0x04, 0x01, 0x00] = .ok (.mirror true false) ∧
  decode Params.default .req [0x09] = .ok .destroy ∧
  decode Params.default .req [0x0B] = .ok (.reqInvalid 1) ∧
  decode Params.default .quadWord [0x02, 0x00, 0x36, 0x00, 0x40] = .ok (.sendCommandQuad 0x36 [0x40]) ∧
  decode Params.default .quadWord [0x32, 0x00, 0x2C, 0x00, 0x00, 0x02] = .ok (.sendPixelsQuad 0x2C 0 2) ∧
  decode Params.default .busCmd [0x2A, 0x00, 0x00, 0x00, 0xEF] = .ok (.caset 0 0xEF) ∧
  decode Params.default .busCmd [0x36] = .ok .madctl

/-- R86: the fields of an address word, for every tag and command byte. -/
def Obligations.AddressWordFields : Prop :=
  ∀ tag op8 : Byte,
    (addressWord tag op8).extractLsb' 24 8 = tag ∧ (addressWord tag op8).extractLsb' 16 8 = 0#8 ∧
    (addressWord tag op8).extractLsb' 8 8 = op8 ∧ (addressWord tag op8).extractLsb' 0 8 = 0#8

/-- R89: a word of a shape the controller never emits is refused by name, whatever follows it; the read tag apart. -/
def Obligations.WordsNotEmittedAreRefused : Prop :=
  ∀ (par : Params) (a : Word) (rest : List Byte),
    a.extractLsb' 24 8 ≠ 0x03#8 →
    (a.extractLsb' 16 8 ≠ 0#8 ∨ a.extractLsb' 0 8 ≠ 0#8 ∨
      (a.extractLsb' 24 8 ≠ 0x02#8 ∧ a.extractLsb' 24 8 ≠ 0x32#8)) →
    decode par .quadWord (wordBytes a ++ rest) = .error .notEmitted

/-- R117: both framings of a transaction carry the same command byte and the same payload or pixel reference. -/
def Obligations.BothVariantsCarryTheSameContent : Prop :=
  ∀ (v : Variant) (t : Transaction), (frame v t).logical = t

/-- R84, R85, R87, R88, R62: the transfers of a framed transaction: the command byte alone under Plain, the four bytes
of the address word, most significant first, under QuadAddressed; then the payload or the pixel bytes in order. The
address word's byte order is the spec's decision D21 (log 14). -/
def Obligations.WireFormOfTransactions : Prop :=
  ∀ (op8 : Byte) (payload data : List Byte) (buf n : Nat),
    (frame .plain (.cmd op8 payload)).wire data = .command op8 :: payload.map .param ∧
    (frame .plain (.pix op8 buf n)).wire data = .command op8 :: data.map .data ∧
    (frame .quadAddressed (.cmd op8 payload)).wire data =
      [.address 0x02, .address 0x00, .address op8, .address 0x00] ++ payload.map .param ∧
    (frame .quadAddressed (.pix op8 buf n)).wire data =
      [.address 0x32, .address 0x00, .address op8, .address 0x00] ++ data.map .data

/-- R71, R277: bus order is issue order. One transaction puts its own transfers on the bus; what a list of transactions
puts there comes before anything issued after it, and is complete before it once its data phases have been delivered; a
history that grows only adds to what is on the bus; three turns of a sending state with a BUS_ACK of ok add exactly that
state's transaction to those accepted. That the bus is read off the history, with data phases as events of their own, is
the model's (log 16), and so is the number of steps (log 2). -/
def Obligations.BusOrderIsIssueOrder : Prop :=
  (∀ (t : BusTxn) (d : List Byte), busOrder [t] [d] = t.wire d) ∧
  (∀ (ts us : List BusTxn) (ds : List (List Byte)), busOrder ts ds <+: busOrder (ts ++ us) ds) ∧
  (∀ (ts us : List BusTxn) (ds es : List (List Byte)), ts.countP (·.isPixels) = ds.length →
    busOrder (ts ++ us) (ds ++ es) = busOrder ts ds ++ busOrder us es) ∧
  (∀ h later : List Event, busStream h <+: busStream (h ++ later)) ∧
  (∀ (s : State) (x : Transaction) (rest : List Bool) (moves : List Input), s.turns 3 moves →
    s.panel.bus = .free → s.panel.hold = none → s.panel.transaction s.params = some x → tooLong s.params x = false →
    unanswered false s.panel.hist = false → s.answers = true :: rest →
    ∃ u, core.run 3 s = .next u ∧
      acceptedTxns u.panel.hist = acceptedTxns s.panel.hist ++ [frame s.panel.cfgVariant x] ∧
      dataPhases u.panel.hist = dataPhases s.panel.hist)

/-! ### What a step runs -/

/-- R40, R80: a step decodes the record presented at REQ and is exec of that instruction, whether the host presents it
now or it waits for IDLE; around exec, only the move or the record is taken off its list. The byte layout of a record
and the lists of waiting requests and moves are the model's (log 3, log 9). -/
def Obligations.StepRunsThePresentedRequest : Prop :=
  (∀ (s : State) (record : List Byte) (rest : List Input) (i : Instr),
    s.inputs = .request record :: rest → decode s.params .req record = .ok i →
      step s = exec i { s with inputs := rest }) ∧
  (∀ (s : State) (record : List Byte) (rest : List (List Byte)) (moves : List Input) (i : Instr),
    s.inputs = .turn :: moves → s.panel.fsm = .idle → s.panel.bus = .free → s.panel.hold = none →
    s.reqs = record :: rest → decode s.params .req record = .ok i →
      step s = exec i { s with inputs := moves, reqs := rest })

/-- R30, R93: where the FSM emits a row of the table, the foreground's step is exec of that row; around exec, only the
move is taken off its list. That each row is a step of its own is the model's (log 2, log 3). -/
def Obligations.StepRunsTheRowTheFsmEmits : Prop :=
  (∀ (s : State) (moves : List Input) (i : Instr),
    s.inputs = .turn :: moves → s.panel.nextRow = some i → step s = exec i { s with inputs := moves }) ∧
  (∀ (s : State) (i : Instr),
    s.inputs = [] → s.panel.pending = [] → s.panel.nextRow = some i → step s = exec i s)

/-- R115, R243 and the schedule of log 3: with no move listed a step is a turn of the foreground or a completion; with
nothing pending it is a turn; with nothing for the foreground to do and a transfer pending, a completion. -/
def Obligations.UnlistedStepIsATurnOrACompletion : Prop :=
  ∀ s : State, s.inputs = [] →
    (s.panel.pending = [] → step s = step { s with inputs := [.turn] }) ∧
    (s.panel.fsm = .idle → s.panel.bus = .free → s.panel.hold = none → s.reqs = [] → s.panel.pending ≠ [] →
      step s = step { s with inputs := [.complete] }) ∧
    (∃ n, step s = step { s with inputs := [.turn], draws := n } ∨
      step s = step { s with inputs := [.complete], draws := n })

/-- R93, R169: no row the FSM emits is ever refused or faulted: it completes, in every state. -/
def Obligations.EmittedRowsComplete : Prop :=
  ∀ (s : State) (i : Instr), s.panel.nextRow = some i → ∃ t, exec i s = .next t

/-! ### Requests the block does not accept (R238, R82) -/

/-- R238: a request while an operation is in progress sets CONCURRENT_CALL and changes nothing else. -/
def Obligations.RequestDuringAnOperationOnlySetsConcurrentCall : Prop :=
  ∀ (s : State) (i : Instr), needsObject i = true → s.panel.fsm ≠ .idle →
    exec i s = .next { s with panel := { s.panel with faults := { s.panel.faults with concurrentCall := true } } }

/-- R238, D25: after destroy any request, create included, sets USE_AFTER_DESTROY and does nothing else. -/
def Obligations.RequestAfterDestroyOnlySetsUseAfterDestroy : Prop :=
  (∀ (s : State) (i : Instr), needsObject i = true → s.panel.fsm = .idle → s.panel.life = .destroyed →
    exec i s = .next { s with panel := { s.panel with faults := { s.panel.faults with useAfterDestroy := true } } }) ∧
  (∀ (s : State) (t : Option Variant) (l : Option ResetLine) (co bpp : Byte) (tab : Option (List InitRow)),
    s.params.distinct → s.panel.life = .destroyed →
    exec (.create t l co bpp tab) s =
      .next { s with panel := { s.panel with faults := { s.panel.faults with useAfterDestroy := true } } })

/-- R238: with no object a request other than create is refused; R94: so is a create whose command bytes clash. -/
def Obligations.RequestsThatAreRefused : Prop :=
  (∀ (s : State) (i : Instr), needsObject i = true → s.panel.fsm = .idle → s.panel.life = .absent →
    exec i s = .refused .noObject) ∧
  (∀ (s : State) (t : Option Variant) (l : Option ResetLine) (co bpp : Byte) (tab : Option (List InitRow)),
    ¬ s.params.distinct → exec (.create t l co bpp tab) s = .refused .commandsNotDistinct)

/-- R82: op codes 0xA to 0xF are refused at the port, in every state; the refusal names the op code. -/
def Obligations.OpCodesThatSpellNoOperationAreRefused : Prop :=
  (∀ (s : State) (low : BitVec 1), exec (.reqInvalid low) s = .refused (.spellsNoOperation (0b101#3 ++ low))) ∧
  (∀ (s : State) (low : BitVec 2), exec (.reqInvalidHi low) s = .refused (.spellsNoOperation (0b11#2 ++ low)))

/-- R69: the read word has no effect the spec gives: refused in every state, and no state of the FSM emits it. -/
def Obligations.TheReadWordIsNeverEmitted : Prop :=
  (∀ (s : State) (low : BitVec 24), exec (.qspiRead low) s = .refused .neverEmitted) ∧
  (∀ (p : Panel) (low : BitVec 24), p.nextRow ≠ some (.qspiRead low))

/-! ### create (R130 to R132, R236, R42) -/

/-- R24, R26, R42, R130: a create that the environment grants leaves the values of R42 (ROW, to which R42 gives none,
stays), without a reset line and with one; FAULT, DIAG, PENDING are new. The line's level is the environment's (R132), and
that this level and the grants are listed answers, asked for in R130's order, is the model's (log 4, log 8); so are the
mark sendRaced (log 12) and STATUS OK in H (log 20). -/
def Obligations.CreateLeavesTheValuesOfR42 : Prop :=
  (∀ (s : State) (v : Variant) (bgr wide : Bool) (tab : Option (List InitRow)) (rest : List Bool),
    s.params.distinct → s.panel.life = .absent → s.answers = true :: rest →
    exec (.create (some v) none (if bgr then 1 else 0) (if wide then 18 else 16) tab) s =
      .next { s with
        answers := rest
        panel := { s.panel with
          life := .live, cfgVariant := v, cfgRst := none
          cfgTable := (match tab with | some t => t | none => initTableDefault s.params.panelModel)
          bpp := if wide then .b24 else .b16
          orient := if bgr then 1#8 <<< s.params.bitBgr.val else 0x00
          colmodSh := if wide then 0x66 else 0x55
          xGap := 0, yGap := 0, fsm := .idle, bus := .free, hold := none
          faults := ⟨false, false, false, false, false, false⟩, ovr := ⟨false, false⟩, resetDone := false
          diag := [], pending := [], sendRaced := false
          hist := s.panel.hist ++ [.status .ok] } }) ∧
  (∀ (s : State) (v : Variant) (l : ResetLine) (bgr wide : Bool) (tab : Option (List InitRow)) (level : Bool)
      (rest : List Bool),
    s.params.distinct → s.panel.life = .absent → s.answers = true :: true :: level :: rest →
    exec (.create (some v) (some l) (if bgr then 1 else 0) (if wide then 18 else 16) tab) s =
      .next { s with
        answers := rest
        panel := { s.panel with
          life := .live, cfgVariant := v, cfgRst := some l, lineHeld := some l.gpio, pin := level
          cfgTable := (match tab with | some t => t | none => initTableDefault s.params.panelModel)
          bpp := if wide then .b24 else .b16
          orient := if bgr then 1#8 <<< s.params.bitBgr.val else 0x00
          colmodSh := if wide then 0x66 else 0x55
          xGap := 0, yGap := 0, fsm := .idle, bus := .free, hold := none
          faults := ⟨false, false, false, false, false, false⟩, ovr := ⟨false, false⟩, resetDone := false
          diag := [], pending := [], sendRaced := false
          hist := s.panel.hist ++ [.claim l.gpio true, .status .ok] } })

/-- R236: the first error in the order InvalidArgument, OutOfMemory, ResetLineError, UnsupportedConfig is reported,
with the RST events of V-C5 to V-C11, whatever the later arguments are. -/
def Obligations.CreateReportsTheFirstError : Prop :=
  ∀ (s : State) (v : Variant) (l : ResetLine) (line : Option ResetLine) (co bpp : Byte) (tab : Option (List InitRow))
    (rest : List Bool), s.params.distinct → s.panel.life = .absent →
    exec (.create none line co bpp tab) s = .next (s.onPanel (·.finish .invalidArgument)) ∧
    (s.answers = false :: rest → exec (.create (some v) line co bpp tab) s =
      .next { s with answers := rest, panel := s.panel.finish .outOfMemory }) ∧
    (s.answers = true :: false :: rest → exec (.create (some v) (some l) co bpp tab) s =
      .next { s with answers := rest, panel := (s.panel.emit (.claim l.gpio false)).finish .resetLineError }) ∧
    (¬ ((co = 0 ∨ co = 1) ∧ (bpp = 16 ∨ bpp = 18)) → s.answers = true :: true :: rest →
      exec (.create (some v) (some l) co bpp tab) s =
        .next { s with answers := rest, panel :=
          { ((s.panel.emit (.claim l.gpio true)).emit (.release l.gpio)).finish .unsupportedConfig with
            lineHeld := none } }) ∧
    (¬ ((co = 0 ∨ co = 1) ∧ (bpp = 16 ∨ bpp = 18)) → s.answers = true :: rest →
      exec (.create (some v) none co bpp tab) s =
        .next { s with answers := rest, panel := s.panel.finish .unsupportedConfig })

/-- R131: whatever the arguments and the environment's answers, a create that leaves no object writes no element of
the slot, holds no line, and adds neither a BUS transaction nor a line level to the history; the line is released only
on the UnsupportedConfig path, after its claim. -/
def Obligations.FailedCreateLeavesNoTrace : Prop :=
  ∀ (s u : State) (t : Option Variant) (l : Option ResetLine) (co bpp : Byte) (tab : Option (List InitRow)),
    s.panel.life = .absent → s.panel.lineHeld = none → exec (.create t l co bpp tab) s = .next u →
    u.panel.life = .absent →
    u.panel = { s.panel with fsm := .idle, bus := .free, hold := none, hist := u.panel.hist } ∧
    ∃ events, u.panel.hist = s.panel.hist ++ events ∧
      (∀ e ∈ events, (∀ x, e ≠ .bus x) ∧ ∀ a p, e ≠ .setReset a p) ∧
      ∀ g, .release g ∈ events → events = [.claim g true, .release g, .status .unsupportedConfig]

/-- R238: a create while an object is live never acts on it: the object is set aside whole, whatever it is doing, and the
create runs on a fresh absent slot, so that what is said of a create on an absent slot holds of it. How the objects are
kept is the model's (log 13). -/
def Obligations.CreateNeverActsOnALiveObject : Prop :=
  ∀ (s : State) (t : Option Variant) (l : Option ResetLine) (co bpp : Byte) (tab : Option (List InitRow)),
    s.params.distinct → s.panel.life = .live →
    exec (.create t l co bpp tab) s =
      exec (.create t l co bpp tab) { s with panel := Panel.absent, others := s.others ++ [s.panel] } ∧
    ∃ u, exec (.create t l co bpp tab) s = .next u ∧ u.others = s.others ++ [s.panel] ∧ u.mem = s.mem

/-! ### reset and destroy (R133 to R138) -/

/-- R134, R136, R137: the hardware path, whole: the request, then six steps; no BUS transaction, no shadow register
written, RESET_DONE set. The number of steps is the model's (log 1 to 3). -/
def Obligations.HardwareResetPath : Prop :=
  ∀ (s : State) (l : ResetLine), s.ready → s.panel.cfgRst = some l →
    exec .reset s = .next { s with panel := { s.panel with fsm := .rstAssert } } ∧
    ∀ moves, s.turns 6 moves →
      ∃ t, exec .reset s = .next t ∧ core.run 6 t = .next { s with inputs := moves, panel := { s.panel with
      resetDone := true, pin := !l.activeHigh
      hist := s.panel.hist ++ [.setReset true l.activeHigh, .waitStart 10, .waitEnd 10,
        .setReset false (!l.activeHigh), .waitStart 10, .waitEnd 10, .status .ok] } }

/-- R135, R137: the software path, whole: one SWRESET, the 20 ms hold, no RST event; on a transport error no hold
follows and RESET_DONE stays. The number of steps is the model's (log 1 to 3). -/
def Obligations.SoftwareResetPath : Prop :=
  ∀ (s : State) (rest : List Bool) (moves : List Input), s.ready → s.panel.cfgRst = none →
    exec .reset s = .next { s with panel := { s.panel with fsm := .rstSwreset } } ∧
    (s.answers = true :: rest → s.turns 5 moves → ∃ t, exec .reset s = .next t ∧ core.run 5 t = .next { s with
      answers := rest, inputs := moves
      panel := { s.panel with
        resetDone := true
        hist := s.panel.hist ++ [.bus (frame s.panel.cfgVariant (.cmd s.params.cmdSwreset [])), .ack true,
          .waitStart 20, .waitEnd 20, .status .ok] } }) ∧
    (s.answers = false :: rest → s.turns 3 moves → ∃ t, exec .reset s = .next t ∧ core.run 3 t = .next { s with
      answers := rest, inputs := moves
      panel := { s.panel with
        hist := s.panel.hist ++ [.bus (frame s.panel.cfgVariant (.cmd s.params.cmdSwreset [])), .ack false,
          .status (.transportError s.params.cmdSwreset)] } })

/-- R138: destroy releases a held line, ends the object and nothing else; PENDING stays. -/
def Obligations.DestroyReleasesTheLine : Prop :=
  ∀ s : State, s.ready →
    (s.panel.cfgRst = none → exec .destroy s =
      .next { s with panel := { s.panel with life := .destroyed, hist := s.panel.hist ++ [.status .ok] } }) ∧
    (∀ l, s.panel.cfgRst = some l → exec .destroy s =
      .next { s with panel := { s.panel with
        life := .destroyed, lineHeld := none, hist := s.panel.hist ++ [.release l.gpio, .status .ok] } })

/-! ### The init sequencer (R160 to R174) -/

/-- R160: init empties OVR and goes to INIT_SLPOUT; with RESET_DONE false it also sets CALLER_ERROR, and still runs. -/
def Obligations.InitEntry : Prop :=
  ∀ s : State, s.panel.life = .live → s.panel.fsm = .idle →
    exec .init s = .next { s with panel := { s.panel with
      ovr := ⟨false, false⟩, fsm := .initSlpout
      faults := if s.panel.resetDone then s.panel.faults else { s.panel.faults with callerError := true } } }

/-- R164, R168: at the end of the table init ends with OK and emits nothing more. -/
def Obligations.InitEndsAfterTheLastRow : Prop :=
  ∀ (s : State) (moves : List Input), s.turns 1 moves → s.panel.fsm = .initRowCheck → s.panel.bus = .free →
    s.panel.hold = none → s.panel.row = s.panel.cfgTable.length →
    step s = .next { s with inputs := moves, panel := { s.panel with fsm := .idle, hist := s.panel.hist ++ [.status .ok] } }

/-- R165: the override test of one row, in all its cases; what it does not name it leaves alone. -/
def Obligations.OverrideDetection : Prop :=
  ∀ (s : State) (r : InitRow) (moves : List Input), s.turns 1 moves → s.panel.fsm = .initRowCheck → s.panel.bus = .free →
    s.panel.hold = none → s.panel.cfgTable[s.panel.row]? = some r →
    (r.opcode ≠ s.params.cmdMadctl → r.opcode ≠ s.params.cmdColmod →
      step s = .next { s with inputs := moves, panel := { s.panel with fsm := .initRowSend } }) ∧
    ((r.opcode = s.params.cmdMadctl ∨ r.opcode = s.params.cmdColmod) → r.payload = [] →
      step s = .next { s with inputs := moves, panel := { s.panel with
        fsm := .idle, faults := { s.panel.faults with tableDefect := true }
        hist := s.panel.hist ++ [.status (.initTableError r.opcode)] } }) ∧
    (∀ v more, r.payload = v :: more → r.opcode = s.params.cmdMadctl →
      step s = .next { s with inputs := moves, panel := { s.panel with
        fsm := .initRowSend, orient := v, ovr := { s.panel.ovr with madctl := true }
        diag := s.panel.diag ++ (if s.panel.ovr.madctl then [] else [r.opcode])
        hist := s.panel.hist ++ (if s.panel.ovr.madctl then [] else [.diag r.opcode]) } }) ∧
    (∀ v more, r.payload = v :: more → r.opcode ≠ s.params.cmdMadctl → r.opcode = s.params.cmdColmod →
      step s = .next { s with inputs := moves, panel := { s.panel with
        fsm := .initRowSend, colmodSh := v, ovr := { s.panel.ovr with colmod := true }
        diag := s.panel.diag ++ (if s.panel.ovr.colmod then [] else [r.opcode])
        hist := s.panel.hist ++ (if s.panel.ovr.colmod then [] else [.diag r.opcode]) } })

/-- R162, R167: after SLPOUT a Wait of 100 ms; after a row, a Wait of its delay and then the next row; no Wait for a delay
of 0. The number of steps is the model's (log 1 to 3). -/
def Obligations.RowDelay : Prop :=
  (∀ (s : State) (r : InitRow) (moves : List Input), s.panel.fsm = .initRowWait → s.panel.bus = .free →
    s.panel.hold = none → s.panel.cfgTable[s.panel.row]? = some r →
    (r.delayMs = 0 → s.turns 1 moves →
      step s = .next { s with inputs := moves, panel := { s.panel with fsm := .initRowCheck, row := s.panel.row + 1 } }) ∧
    (0 < r.delayMs → s.turns 2 moves → core.run 2 s = .next { s with inputs := moves, panel := { s.panel with
      fsm := .initRowCheck, row := s.panel.row + 1
      hist := s.panel.hist ++ [.waitStart r.delayMs, .waitEnd r.delayMs] } })) ∧
  (∀ (s : State) (moves : List Input), s.panel.fsm = .initSlpwait → s.panel.bus = .free → s.panel.hold = none →
    s.turns 2 moves → core.run 2 s = .next { s with inputs := moves, panel := { s.panel with
      fsm := .initPushMadctl, hist := s.panel.hist ++ [.waitStart 100, .waitEnd 100] } })

/-- R162 to R170: a successful init, over a table of any length: exactly SLPOUT, MADCTL, COLMOD and then every row once,
in order, as written; a Wait of 100 ms and then those of the rows; the shadows end at the last override or as they were;
one diagnostic for each managed command, in order of first appearance; OK last. The number of steps is the model's
(log 1 to 3). -/
def Obligations.SuccessfulInitWalksTheWholeTable : Prop :=
  ∀ (s : State) (rest : List Bool) (moves : List Input), s.ready → s.params.distinct →
    s.turns (initSteps s.panel.cfgTable) moves →
    (∀ r ∈ s.panel.cfgTable, (managed s.params r.opcode = true → r.payload ≠ []) ∧
      payloadFits s.params r.payload.length) →
    payloadFits s.params 1 →
    s.answers = List.replicate (3 + s.panel.cfgTable.length) true ++ rest →
    ∃ t u, exec .init s = .next t ∧ core.run (initSteps s.panel.cfgTable) t = .next u ∧
      u.panel.fsm = .idle ∧ u.panel.life = .live ∧ u.answers = rest ∧ u.inputs = moves ∧ u.mem = s.mem ∧
      u.panel.pending = s.panel.pending ∧
      busEvents u.panel.hist = busEvents s.panel.hist ++
        ([Transaction.cmd s.params.cmdSlpout [], .cmd s.params.cmdMadctl [s.panel.orient],
          .cmd s.params.cmdColmod [s.panel.colmodSh]] ++
          s.panel.cfgTable.map fun r => Transaction.cmd r.opcode r.payload).map (frame s.panel.cfgVariant) ∧
      waitEvents u.panel.hist =
        waitEvents s.panel.hist ++ [.waitStart 100, .waitEnd 100] ++ rowWaits s.panel.cfgTable ∧
      u.panel.hist.getLast? = some (.status .ok) ∧
      u.panel.orient = lastOverride s.params.cmdMadctl s.panel.orient s.panel.cfgTable ∧
      u.panel.colmodSh = lastOverride s.params.cmdColmod s.panel.colmodSh s.panel.cfgTable ∧
      u.panel.diag = s.panel.diag ++ firstOverrides s.params [] s.panel.cfgTable

/-! ### Transactions (R110 to R117) -/

/-- R92, R93: SWRESET, SLPOUT, INVOFF, INVON, DISPOFF and DISPON, in the FSM state that emits each, hand the encoder
the command with an empty payload, and change nothing else. That the hand-over to the encoder is a step of its own is
the model's (log 2). -/
def Obligations.CommandsWithEmptyPayload : Prop :=
  ∀ s : State, s.panel.bus = .free → s.panel.hold = none →
    (s.panel.fsm = .rstSwreset → exec .swreset s =
      .next { s with panel := { s.panel with bus := .submitted (.cmd s.params.cmdSwreset []) } }) ∧
    (s.panel.fsm = .initSlpout → exec .slpout s =
      .next { s with panel := { s.panel with bus := .submitted (.cmd s.params.cmdSlpout []) } }) ∧
    (s.panel.fsm = .cmdSend .invOff → exec .invoff s =
      .next { s with panel := { s.panel with bus := .submitted (.cmd s.params.cmdInvoff []) } }) ∧
    (s.panel.fsm = .cmdSend .invOn → exec .invon s =
      .next { s with panel := { s.panel with bus := .submitted (.cmd s.params.cmdInvon []) } }) ∧
    (s.panel.fsm = .cmdSend .dispOff → exec .dispoff s =
      .next { s with panel := { s.panel with bus := .submitted (.cmd s.params.cmdDispoff []) } }) ∧
    (s.panel.fsm = .cmdSend .dispOn → exec .dispon s =
      .next { s with panel := { s.panel with bus := .submitted (.cmd s.params.cmdDispon []) } })

/-- R61, R90, R190: CASET and RASET carry the draw's window as two big-endian pairs, RAMWR its buffer and length. That
the hand-over to the encoder is a step of its own is the model's (log 2). -/
def Obligations.WindowCommands : Prop :=
  ∀ (s : State) (w : Window), s.panel.bus = .free → s.panel.hold = none →
    (s.panel.fsm = .drawCaset w → exec (.caset w.xs w.xe) s =
      .next { s with panel := { s.panel with bus := .submitted (.cmd s.params.cmdCaset
        [(w.xs >>> 8).setWidth 8, w.xs.setWidth 8, (w.xe >>> 8).setWidth 8, w.xe.setWidth 8]) } }) ∧
    (s.panel.fsm = .drawRaset w → exec (.raset w.ys w.ye) s =
      .next { s with panel := { s.panel with bus := .submitted (.cmd s.params.cmdRaset
        [(w.ys >>> 8).setWidth 8, w.ys.setWidth 8, (w.ye >>> 8).setWidth 8, w.ye.setWidth 8]) } }) ∧
    (s.panel.fsm = .drawRamwr w → exec (.ramwr w.buf w.n) s =
      .next { s with panel := { s.panel with bus := .submitted (.pix s.params.cmdRamwr w.buf w.n) } })

/-- R91, R163, R166: MADCTL and COLMOD carry the whole shadow register as it stands; an init row carries its own
payload, never the shadow. That the hand-over to the encoder is a step of its own is the model's (log 2). -/
def Obligations.RegisterCommandsAndRows : Prop :=
  ∀ s : State, s.panel.bus = .free → s.panel.hold = none →
    (s.panel.fsm = .initPushMadctl ∨ s.panel.fsm = .oriSend → exec .madctl s =
      .next { s with panel := { s.panel with bus := .submitted (.cmd s.params.cmdMadctl [s.panel.orient]) } }) ∧
    (s.panel.fsm = .initPushColmod → exec .colmod s =
      .next { s with panel := { s.panel with bus := .submitted (.cmd s.params.cmdColmod [s.panel.colmodSh]) } }) ∧
    (∀ r : InitRow, s.panel.fsm = .initRowSend → s.panel.cfgTable[s.panel.row]? = some r →
      exec (.vendorRow r.opcode r.payload) s =
        .next { s with panel := { s.panel with bus := .submitted (.cmd r.opcode r.payload) } })

/-- R84, R85, R87, R88, R110, R113: the framed transaction an emitted transport row puts on BUS, and the wait for its
BUS_ACK; nothing else changes. That the hand-over to the encoder is a step of its own is the model's (log 2). -/
def Obligations.TransportRowsFrameTheTransaction : Prop :=
  ∀ (s : State) (op8 : Byte) (payload : List Byte) (buf n : Nat),
    (s.panel.cfgVariant = .plain → s.panel.bus = .submitted (.cmd op8 payload) →
      exec (.sendCommandPlain op8 payload) s = .next { s with panel := { s.panel with
        bus := .awaiting (.cmd op8 payload), hist := s.panel.hist ++ [.bus (.plainCmd op8 payload)] } }) ∧
    (s.panel.cfgVariant = .plain → s.panel.bus = .submitted (.pix op8 buf n) →
      exec (.sendPixelsPlain op8 buf n) s = .next { s with panel := { s.panel with
        bus := .awaiting (.pix op8 buf n), hist := s.panel.hist ++ [.bus (.plainPix op8 buf n)] } }) ∧
    (s.panel.cfgVariant = .quadAddressed → s.panel.bus = .submitted (.cmd op8 payload) →
      exec (.sendCommandQuad op8 payload) s = .next { s with panel := { s.panel with
        bus := .awaiting (.cmd op8 payload)
        hist := s.panel.hist ++ [.bus (.quadCmd (0x02000000#32 ||| (op8.setWidth 32 <<< 8)) payload)] } }) ∧
    (s.panel.cfgVariant = .quadAddressed → s.panel.bus = .submitted (.pix op8 buf n) →
      exec (.sendPixelsQuad op8 buf n) s = .next { s with panel := { s.panel with
        bus := .awaiting (.pix op8 buf n)
        hist := s.panel.hist ++ [.bus (.quadPix (0x32000000#32 ||| (op8.setWidth 32 <<< 8)) buf n)] } })

/-- R110, R116, R169: every sending state of the FSM puts exactly its own transaction on BUS, framed by CFG_VARIANT,
in two steps, and waits there. That it takes two steps is the model's (log 2). -/
def Obligations.SendingStatesSendTheirTransaction : Prop :=
  ∀ (s : State) (t : Transaction) (moves : List Input), s.turns 2 moves → s.panel.bus = .free → s.panel.hold = none →
    s.panel.transaction s.params = some t →
    core.run 2 s = .next { s with inputs := moves, panel := { s.panel with
      bus := .awaiting t, hist := s.panel.hist ++ [.bus (frame s.panel.cfgVariant t)] } }

/-- R233, R239, R171: a BUS_ACK of err ends the operation at once with TransportError of the failed command byte;
every write made before stays; PENDING does not grow. -/
def Obligations.TransportErrorEndsTheOperation : Prop :=
  ∀ (s : State) (t : Transaction) (rest : List Bool) (moves : List Input), s.turns 1 moves →
    s.panel.bus = .awaiting t → tooLong s.params t = false → s.answers = false :: rest →
    step s = .next { s with inputs := moves, answers := rest, panel := { s.panel with
      fsm := .idle, bus := .free, hold := none
      hist := s.panel.hist ++ [.ack false, .status (.transportError t.op8)] } }

/-- R110, D26: a payload longer than MAX_PAYLOAD is always answered err, whatever the environment would answer. -/
def Obligations.PayloadOverTheLimitFails : Prop :=
  ∀ (s : State) (op8 : Byte) (payload : List Byte) (limit : Nat) (moves : List Input), s.turns 1 moves →
    s.panel.bus = .awaiting (.cmd op8 payload) → s.params.maxPayload = some limit → limit < payload.length →
    step s = .next { s with inputs := moves, panel := { s.panel with
      fsm := .idle, bus := .free, hold := none
      hist := s.panel.hist ++ [.ack false, .status (.transportError op8)] } }

/-- R113, R114, R194: an accepted pixel transfer joins PENDING at its end and draw ends with OK at once. The entry's mark
is the model's (log 12). -/
def Obligations.AcceptedPixelsArePending : Prop :=
  ∀ (s : State) (w : Window) (op8 : Byte) (buf n : Nat) (rest : List Bool) (moves : List Input),
    s.inputs = .turn :: moves → s.panel.bus = .awaiting (.pix op8 buf n) → s.panel.fsm = .drawRamwr w →
    s.answers = true :: rest →
    step s = .next { s with inputs := moves, answers := rest, panel := { s.panel with
      fsm := .idle, bus := .free, hold := none, pending := s.panel.pending ++ [⟨buf, n, s.panel.sendRaced⟩]
      hist := s.panel.hist ++ [.ack true, .status .ok] } }

/-- R115: the Transport completes the oldest entry: its bytes, and only they, go into the history, and the entry goes;
with a buffer the host has not filled it has no move (R193). R74: a raced entry goes too, with one data phase of n bytes,
whatever they are. That a byte nobody wrote is absent is the model's (log 7), and so are the data phase as an event of its
own (log 16) and the raced mark, which holds for a short buffer as well (log 12). -/
def Obligations.CompletionDeliversTheOldestTransfer : Prop :=
  (∀ (s : State) (buf n : Nat) (later : List Pending) (moves : List Input),
    s.inputs = .complete :: moves → s.panel.pending = ⟨buf, n, false⟩ :: later →
    (∀ bytes, Memory.readMany s.mem buf n = some bytes → step s = .next { s with inputs := moves, panel := { s.panel with
      pending := later, hist := s.panel.hist ++ [.pixels buf bytes] } }) ∧
    (Memory.readMany s.mem buf n = none → step s = .refused .bufferTooShort)) ∧
  (∀ (s : State) (buf n : Nat) (later : List Pending) (moves : List Input),
    s.inputs = .complete :: moves → s.panel.pending = ⟨buf, n, true⟩ :: later →
    ∃ bytes k, bytes.length = n ∧ step s = .next { s with inputs := moves, draws := k, panel := { s.panel with
      pending := later, hist := s.panel.hist ++ [.pixels buf bytes] } })

/-- R63, R85: what is delivered is the buffer, byte for byte in order. -/
def Obligations.PixelBytesAreTheBufferInOrder : Prop :=
  ∀ (m : Memory) (buf n : Nat),
    (∀ bytes, Memory.readMany m buf n = some bytes →
      bytes.length = n ∧ ∀ k, k < n → Memory.read m (buf + k) = bytes[k]?) ∧
    (Memory.readMany m buf n = none → ∃ k, k < n ∧ Memory.read m (buf + k) = none)

/-- R74, R76: a host write is a race exactly for the objects with a pending buffer, or the buffer of a draw in progress,
that holds the address; it changes nothing else of any object. Which entries are marked, and that the buffer of a draw
whose contract check fails is no buffer, is the model's (log 12). -/
def Obligations.HostWriteIntoAPendingBufferIsARace : Prop :=
  (∀ (s : State) (a : Nat) (b : Byte) (moves : List Input), s.inputs = .write a b :: moves →
    let covers := fun e : Pending => decide (e.buf ≤ a) && decide (a < e.buf + e.n)
    let noted := fun p : Panel => { p with
      faults := { p.faults with
        bufferRace := p.faults.bufferRace || p.pending.any covers || p.drawBuffer.any covers }
      pending := p.pending.map fun e => { e with raced := e.raced || covers e }
      sendRaced := p.sendRaced || (p.sending && p.drawBuffer.any covers) }
    step s = .next { s with
      inputs := moves, mem := Memory.write s.mem a b, panel := noted s.panel, others := s.others.map noted }) ∧
  (∀ (p : Panel) (w : Window),
    (p.fsm = .drawCaset w ∨ p.fsm = .drawRaset w ∨ p.fsm = .drawRamwr w ∨
      ∃ r, p.fsm = .drawCheck r ∧ windowOf p.bpp p.xGap p.yGap r = some w) →
    p.drawBuffer = some ⟨w.buf, w.n, false⟩)

/-- R64, R74: nothing but a host write changes host memory. -/
def Obligations.OnlyTheHostWritesItsMemory : Prop :=
  ∀ s t : State, (∀ a b moves, s.inputs ≠ .write a b :: moves) → step s = .next t → t.mem = s.mem

/-! ### The window writer (R190 to R196) -/

/-- R190, R191: a draw that meets the contract: the window with the gap added, inclusive ends, the exact byte count of
the caller's rectangle, which is positive; nothing else changes but the draw's own mark (log 12). That the request is
accepted in one step and DRAW_CHECK is the next is log 1. -/
def Obligations.DrawComputesTheWindow : Prop :=
  ∀ (s : State) (x0 y0 x1 y1 : Word) (buf : Nat), s.ready →
    exec (.draw x0 y0 x1 y1 buf) s = .next { s with panel := { s.panel with
      fsm := .drawCheck ⟨x0, y0, x1, y1, buf⟩, sendRaced := false } } ∧
    ∀ moves, s.turns 1 moves →
    x0.toInt < x1.toInt → y0.toInt < y1.toInt →
    0 ≤ x0.toInt + s.panel.xGap.toInt → x1.toInt + s.panel.xGap.toInt - 1 ≤ 0xFFFF →
    0 ≤ y0.toInt + s.panel.yGap.toInt → y1.toInt + s.panel.yGap.toInt - 1 ≤ 0xFFFF →
    (x1.toInt - x0.toInt) * (y1.toInt - y0.toInt) * s.panel.bpp.bits < 8 * 2 ^ 32 →
    ∃ (t : State) (w : Window), exec (.draw x0 y0 x1 y1 buf) s = .next t ∧
      step t = .next { s with inputs := moves, panel := { s.panel with fsm := .drawCaset w, sendRaced := false } } ∧
      (w.xs.toNat : Int) = x0.toInt + s.panel.xGap.toInt ∧ (w.xe.toNat : Int) = x1.toInt + s.panel.xGap.toInt - 1 ∧
      (w.ys.toNat : Int) = y0.toInt + s.panel.yGap.toInt ∧ (w.ye.toNat : Int) = y1.toInt + s.panel.yGap.toInt - 1 ∧
      w.buf = buf ∧ 0 < w.n ∧
      (w.n : Int) * 8 = (x1.toInt - x0.toInt) * (y1.toInt - y0.toInt) * s.panel.bpp.bits

/-- R190, R235, R237: a rectangle that breaks any of the three checks: ContractViolation with FAULT.CONTRACT, before any
transaction; until DRAW_CHECK has run the draw is in progress, so another request then is a concurrent call (R30, R238).
That the request is accepted in one step and DRAW_CHECK is the next is log 1. -/
def Obligations.DrawContractViolation : Prop :=
  ∀ (s : State) (x0 y0 x1 y1 : Word) (buf : Nat), s.ready →
    ∃ t, exec (.draw x0 y0 x1 y1 buf) s = .next t ∧
      (∀ i, needsObject i = true → exec i t = .next { t with panel := { t.panel with
        faults := { t.panel.faults with concurrentCall := true } } }) ∧
      ∀ moves, s.turns 1 moves →
      (¬ (x0.toInt < x1.toInt ∧ y0.toInt < y1.toInt) ∨
        ¬ (0 ≤ x0.toInt + s.panel.xGap.toInt ∧ x1.toInt + s.panel.xGap.toInt - 1 ≤ 0xFFFF ∧
          0 ≤ y0.toInt + s.panel.yGap.toInt ∧ y1.toInt + s.panel.yGap.toInt - 1 ≤ 0xFFFF) ∨
        8 * 2 ^ 32 ≤ (x1.toInt - x0.toInt) * (y1.toInt - y0.toInt) * s.panel.bpp.bits) →
      step t = .next { s with inputs := moves, panel := { s.panel with
        faults := { s.panel.faults with contract := true }, sendRaced := false
        hist := s.panel.hist ++ [.status .contractViolation] } }

/-- R190, R194, R196: from its window a draw emits exactly CASET, RASET and the pixel transfer, then OK, with the
transfer left pending. The number of steps and the entry's mark are the model's (log 2, log 3, log 12). -/
def Obligations.DrawEmitsThreeTransactions : Prop :=
  ∀ (s : State) (w : Window) (rest : List Bool) (moves : List Input), s.turns 9 moves →
    s.panel.fsm = .drawCaset w → s.panel.bus = .free →
    s.panel.hold = none → s.answers = true :: true :: true :: rest →
    payloadFits s.params 4 →
    core.run 9 s = .next { s with inputs := moves, answers := rest, panel := { s.panel with
      fsm := .idle, pending := s.panel.pending ++ [⟨w.buf, w.n, s.panel.sendRaced⟩]
      hist := s.panel.hist ++
        [.bus (frame s.panel.cfgVariant (.cmd s.params.cmdCaset (winPayload w.xs w.xe))), .ack true,
         .bus (frame s.panel.cfgVariant (.cmd s.params.cmdRaset (winPayload w.ys w.ye))), .ack true,
         .bus (frame s.panel.cfgVariant (.pix s.params.cmdRamwr w.buf w.n)), .ack true, .status .ok] } }

/-- R192: what DRAW_CHECK computes depends on nothing but the rectangle, the gaps and BPP: two states that agree on the
gaps and BPP pass or fail together, with the same window; the window's coordinates depend on the gaps alone, and the byte
count on BPP alone. So neither ORIENT nor COLMOD_SH has an effect on it, nor on the acceptance of the request (log 1). -/
def Obligations.DrawIgnoresTheShadowRegisters : Prop :=
  (∀ (s t : State) (x0 y0 x1 y1 : Word) (buf : Nat) (v c : Byte), exec (.draw x0 y0 x1 y1 buf) s = .next t →
    exec (.draw x0 y0 x1 y1 buf) { s with panel := { s.panel with orient := v, colmodSh := c } } =
      .next { t with panel := { t.panel with orient := v, colmodSh := c } }) ∧
  (∀ (s t : State) (r : DrawArgs) (ms mt : List Input), s.inputs = .turn :: ms → t.inputs = .turn :: mt →
    s.panel.fsm = .drawCheck r → t.panel.fsm = .drawCheck r → s.panel.bus = .free → t.panel.bus = .free →
    s.panel.hold = none → t.panel.hold = none →
    ∃ p q, step s = .next { s with inputs := ms, panel := p } ∧ step t = .next { t with inputs := mt, panel := q } ∧
      (s.panel.xGap = t.panel.xGap → s.panel.yGap = t.panel.yGap → s.panel.bpp = t.panel.bpp → p.fsm = q.fsm) ∧
      ∀ w v, p.fsm = .drawCaset w → q.fsm = .drawCaset v →
        (s.panel.xGap = t.panel.xGap → w.xs = v.xs ∧ w.xe = v.xe) ∧
        (s.panel.yGap = t.panel.yGap → w.ys = v.ys ∧ w.ye = v.ye) ∧
        (s.panel.bpp = t.panel.bpp → w.n = v.n))

/-- R195: set_gap writes the two gaps and emits no transaction, for every pair of values. -/
def Obligations.SetGapWritesTheGaps : Prop :=
  ∀ (s : State) (x y : Word), s.ready →
    exec (.setGap x y) s = .next { s with panel := { s.panel with
      xGap := x, yGap := y, hist := s.panel.hist ++ [.status .ok] } }

/-! ### Orientation and the binary commands (R210 to R216) -/

/-- R211: mirror drives MX by x and MY by y (two bits, as R22 has them) and keeps every other bit; then MADCTL with the
new byte, then OK. The number of steps is the model's (log 1 to 3). -/
def Obligations.MirrorDrivesMxAndMy : Prop :=
  ∀ (s : State) (x y : Bool) (rest : List Bool) (moves : List Input), s.ready →
    ∃ (t : State) (v : Byte),
      exec (.mirror x y) s = .next t ∧
      t = { s with panel := { s.panel with fsm := .oriUpdate (.mirror x y) } } ∧
      (s.params.bitMx ≠ s.params.bitMy → v.getLsbD s.params.bitMx = x ∧ v.getLsbD s.params.bitMy = y) ∧
      (∀ k : Fin 8, k ≠ s.params.bitMx → k ≠ s.params.bitMy → v.getLsbD k = s.panel.orient.getLsbD k) ∧
      (s.turns 1 moves → step t = .next { s with inputs := moves, panel := { s.panel with
        orient := v, fsm := .oriSend } }) ∧
      (s.answers = true :: rest → payloadFits s.params 1 → s.turns 4 moves →
        core.run 4 t = .next { s with inputs := moves, answers := rest, panel := { s.panel with
          orient := v
          hist := s.panel.hist ++
            [.bus (frame s.panel.cfgVariant (.cmd s.params.cmdMadctl [v])), .ack true, .status .ok] } })

/-- R212: swap_xy drives MV and keeps every other bit; then MADCTL with the new byte, then OK. The number of steps is
the model's (log 1 to 3). -/
def Obligations.SwapXyDrivesMv : Prop :=
  ∀ (s : State) (b : Bool) (rest : List Bool) (moves : List Input), s.ready →
    ∃ (t : State) (v : Byte),
      exec (.swapXy b) s = .next t ∧
      t = { s with panel := { s.panel with fsm := .oriUpdate (.swap b) } } ∧
      v.getLsbD s.params.bitMv = b ∧
      (∀ k : Fin 8, k ≠ s.params.bitMv → v.getLsbD k = s.panel.orient.getLsbD k) ∧
      (s.turns 1 moves → step t = .next { s with inputs := moves, panel := { s.panel with
        orient := v, fsm := .oriSend } }) ∧
      (s.answers = true :: rest → payloadFits s.params 1 → s.turns 4 moves →
        core.run 4 t = .next { s with inputs := moves, answers := rest, panel := { s.panel with
          orient := v
          hist := s.panel.hist ++
            [.bus (frame s.panel.cfgVariant (.cmd s.params.cmdMadctl [v])), .ack true, .status .ok] } })

/-- R215: mirror and swap_xy commute on ORIENT, from any byte, wherever MV lies apart from MX and MY; either order
gives R215's formula. -/
def Obligations.MirrorAndSwapCommute : Prop :=
  ∀ (par : Params) (base : Byte) (x y b : Bool),
    par.bitMx ≠ par.bitMv → par.bitMy ≠ par.bitMv →
    orientSwap par (orientMirror par base x y) b = orientMirror par (orientSwap par base b) x y ∧
    orientSwap par (orientMirror par base x y) b =
      (base &&& ~~~((1#8 <<< par.bitMx.val) ||| (1#8 <<< par.bitMy.val) ||| (1#8 <<< par.bitMv.val))) |||
        ((if x then 1#8 else 0#8) <<< par.bitMx.val) ||| ((if y then 1#8 else 0#8) <<< par.bitMy.val) |||
        ((if b then 1#8 else 0#8) <<< par.bitMv.val)

/-- R211, R212, D14: a transport error after mirror or swap_xy leaves the new ORIENT in place. The number of steps is
the model's (log 1 to 3). -/
def Obligations.OrientationKeepsItsValueOnError : Prop :=
  ∀ (s : State) (i : Instr) (v : Byte) (rest : List Bool) (moves : List Input), s.ready → s.turns 4 moves →
    ((∃ x y, i = .mirror x y ∧ v = orientMirror s.params s.panel.orient x y) ∨
      (∃ b, i = .swapXy b ∧ v = orientSwap s.params s.panel.orient b)) →
    payloadFits s.params 1 → s.answers = false :: rest →
    ∃ t, exec i s = .next t ∧ core.run 4 t = .next { s with inputs := moves, answers := rest, panel := { s.panel with
      orient := v
      hist := s.panel.hist ++ [.bus (frame s.panel.cfgVariant (.cmd s.params.cmdMadctl [v])), .ack false,
        .status (.transportError s.params.cmdMadctl)] } }

/-- R213, R214: the binary commands: one transaction with an empty payload, then OK; no register is written. The
number of steps is the model's (log 1 to 3). -/
def Obligations.BinaryCommandsKeepNoState : Prop :=
  ∀ (s : State) (on : Bool) (rest : List Bool) (moves : List Input), s.ready →
    exec (.invertColor on) s = .next { s with panel := { s.panel with
      fsm := .cmdSend (if on then .invOn else .invOff) } } ∧
    exec (.displayOnOff on) s = .next { s with panel := { s.panel with
      fsm := .cmdSend (if on then .dispOn else .dispOff) } } ∧
    (s.answers = true :: rest → s.turns 3 moves → ∃ t, exec (.invertColor on) s = .next t ∧
      core.run 3 t = .next { s with inputs := moves, answers := rest, panel := { s.panel with hist := s.panel.hist ++
        [.bus (frame s.panel.cfgVariant (.cmd (if on then s.params.cmdInvon else s.params.cmdInvoff) [])),
         .ack true, .status .ok] } }) ∧
    (s.answers = true :: rest → s.turns 3 moves → ∃ t, exec (.displayOnOff on) s = .next t ∧
      core.run 3 t = .next { s with inputs := moves, answers := rest, panel := { s.panel with hist := s.panel.hist ++
        [.bus (frame s.panel.cfgVariant (.cmd (if on then s.params.cmdDispon else s.params.cmdDispoff) [])),
         .ack true, .status .ok] } })

/-! ### The whole machine -/

/-- The state before the first request meets the invariant (the values of its absent slot: log 5). -/
def Obligations.ResetMeetsTheInvariant : Prop := State.reset.Inv

/-- Every step keeps the invariant of Safety.lean: canonical memory, no operation on an object that is not LIVE, the
line held exactly by its object, every transaction and Wait the one its FSM state asks for, ROW inside the table, every
window and length in range, a BUS transaction of the history without its BUS_ACK exactly while one is awaited. -/
def Obligations.StepKeepsTheInvariant : Prop := ∀ s t : State, s.Inv → step s = .next t → t.Inv

/-- 93 section 1: "No case is treated as stuck": under the invariant no step faults. -/
def Obligations.NoStepFaults : Prop := ∀ (s : State) (f : Fault), s.Inv → step s ≠ .fault f

/-- R21, R32, R35, R41, R75, R116, R247: whatever a step does, every object goes on in its place (log 13): either the
host turns to another object, which changes places with the addressed one; or the addressed object is set aside whole,
behind the others; or each stays where it is, with its configuration unchanged, its history and DIAG only longer, and its
fault bits kept (an absent slot, which holds no object, may become one). -/
def Obligations.ObjectsKeepConfigurationHistoryAndFaults : Prop :=
  ∀ s t : State, step s = .next t →
    (∃ k moves q, s.inputs = .select k :: moves ∧ s.others[k]? = some q ∧ t.panel = q ∧
      t.others = s.others.set k s.panel) ∨
    t.others = s.others ++ [s.panel] ∨
    (t.others.length = s.others.length ∧ (s.panel.life ≠ .absent → t.panel.Continues s.panel) ∧
      ∀ (k : Nat) (p : Panel), s.others[k]? = some p → ∃ q : Panel, t.others[k]? = some q ∧ q.Continues p)

/-- R23, R210: no instruction but create changes ORIENT itself, and no FSM step does but the update of a mirror or
swap_xy, by its formula, and an override of the row at ROW, with its first byte. -/
def Obligations.OnlyTheOrientationMuxWritesOrient : Prop :=
  (∀ (s t : State) (i : Instr), exec i s = .next t → t.panel.orient ≠ s.panel.orient →
    ∃ a l c b d, i = .create a l c b d) ∧
  (∀ (s t : State) (moves : List Input), s.inputs = .turn :: moves ∨ s.inputs = .complete :: moves → s.reqs = [] →
    step s = .next t → t.panel.orient ≠ s.panel.orient →
    (s.panel.fsm = .initRowCheck ∧ ∃ r v more, s.panel.cfgTable[s.panel.row]? = some r ∧
      r.opcode = s.params.cmdMadctl ∧ r.payload = v :: more ∧ t.panel.orient = v) ∨
    (∃ x y, s.panel.fsm = .oriUpdate (.mirror x y) ∧ t.panel.orient = orientMirror s.params s.panel.orient x y) ∨
    (∃ b, s.panel.fsm = .oriUpdate (.swap b) ∧ t.panel.orient = orientSwap s.params s.panel.orient b))

/-- R26, R27, R29: BPP and the gaps are written by create and set_gap only; no FSM step writes them. -/
def Obligations.OnlyCreateAndSetGapWriteBppAndGaps : Prop :=
  (∀ (s t : State) (i : Instr), exec i s = .next t →
    (t.panel.bpp ≠ s.panel.bpp → ∃ a l c b d, i = .create a l c b d) ∧
    (t.panel.xGap ≠ s.panel.xGap ∨ t.panel.yGap ≠ s.panel.yGap →
      (∃ a l c b d, i = .create a l c b d) ∨ ∃ x y, i = .setGap x y ∧ t.panel.xGap = x ∧ t.panel.yGap = y)) ∧
  (∀ (s t : State) (moves : List Input), s.inputs = .turn :: moves ∨ s.inputs = .complete :: moves → s.reqs = [] →
    step s = .next t →
    t.panel.bpp = s.panel.bpp ∧ t.panel.xGap = s.panel.xGap ∧ t.panel.yGap = s.panel.yGap)

/-- R25, R26, R173: COLMOD_SH is written by create and by an override of a COLMOD row only. -/
def Obligations.OnlyCreateAndOverridesWriteColmodSh : Prop :=
  (∀ (s t : State) (i : Instr), exec i s = .next t → t.panel.colmodSh ≠ s.panel.colmodSh →
    ∃ a l c b d, i = .create a l c b d) ∧
  (∀ (s t : State) (moves : List Input), s.inputs = .turn :: moves ∨ s.inputs = .complete :: moves → s.reqs = [] →
    step s = .next t → t.panel.colmodSh ≠ s.panel.colmodSh →
    s.panel.fsm = .initRowCheck ∧ ∃ r v more, s.panel.cfgTable[s.panel.row]? = some r ∧
      r.opcode = s.params.cmdColmod ∧ r.payload = v :: more ∧ t.panel.colmodSh = v)

/-- R34, D18: RESET_DONE is set by the end of a reset with OK only, and cleared by create only. -/
def Obligations.OnlyACompletedResetSetsResetDone : Prop :=
  (∀ (s t : State) (i : Instr), exec i s = .next t → t.panel.resetDone ≠ s.panel.resetDone →
    ∃ a l c b d, i = .create a l c b d) ∧
  (∀ (s t : State) (moves : List Input), s.inputs = .turn :: moves ∨ s.inputs = .complete :: moves → s.reqs = [] →
    step s = .next t → t.panel.resetDone ≠ s.panel.resetDone →
    (s.panel.fsm = .rstHold2 ∨ s.panel.fsm = .rstSwhold) ∧ t.panel.resetDone = true ∧ t.panel.fsm = .idle ∧
      ∃ ms, t.panel.hist = s.panel.hist ++ [.waitEnd ms, .status .ok])

/-- R247: objects share no state: no step on the addressed object changes another (a host write into a pending buffer or
the buffer of a draw, and a turn to another object, apart). No step changes the parameters of R8. How the objects are kept
is the model's (log 13); that the parameters stand in the state and that no step changes them is the model's too (log 6). -/
def Obligations.OtherObjectsAreUntouched : Prop :=
  (∀ s t : State, (∀ a b moves, s.inputs ≠ .write a b :: moves) → (∀ k moves, s.inputs ≠ .select k :: moves) →
    step s = .next t → s.others <+: t.others) ∧
  (∀ s t : State, step s = .next t → t.params = s.params)
end

