-- ==== Sys2Proof/Laws/State.lean ====
section
/-! SUPPORT. One lemma per field per update of the state records, true by unfolding. -/

namespace Sys2Proof.Machine

/-! ### `Panel.emit` -/

@[simp] theorem Panel.emit_life (p : Panel) (e : Event) : (p.emit e).life = p.life := rfl
@[simp] theorem Panel.emit_cfgVariant (p : Panel) (e : Event) : (p.emit e).cfgVariant = p.cfgVariant := rfl
@[simp] theorem Panel.emit_cfgRst (p : Panel) (e : Event) : (p.emit e).cfgRst = p.cfgRst := rfl
@[simp] theorem Panel.emit_cfgTable (p : Panel) (e : Event) : (p.emit e).cfgTable = p.cfgTable := rfl
@[simp] theorem Panel.emit_bpp (p : Panel) (e : Event) : (p.emit e).bpp = p.bpp := rfl
@[simp] theorem Panel.emit_orient (p : Panel) (e : Event) : (p.emit e).orient = p.orient := rfl
@[simp] theorem Panel.emit_colmodSh (p : Panel) (e : Event) : (p.emit e).colmodSh = p.colmodSh := rfl
@[simp] theorem Panel.emit_xGap (p : Panel) (e : Event) : (p.emit e).xGap = p.xGap := rfl
@[simp] theorem Panel.emit_yGap (p : Panel) (e : Event) : (p.emit e).yGap = p.yGap := rfl
@[simp] theorem Panel.emit_fsm (p : Panel) (e : Event) : (p.emit e).fsm = p.fsm := rfl
@[simp] theorem Panel.emit_row (p : Panel) (e : Event) : (p.emit e).row = p.row := rfl
@[simp] theorem Panel.emit_faults (p : Panel) (e : Event) : (p.emit e).faults = p.faults := rfl
@[simp] theorem Panel.emit_ovr (p : Panel) (e : Event) : (p.emit e).ovr = p.ovr := rfl
@[simp] theorem Panel.emit_resetDone (p : Panel) (e : Event) : (p.emit e).resetDone = p.resetDone := rfl
@[simp] theorem Panel.emit_diag (p : Panel) (e : Event) : (p.emit e).diag = p.diag := rfl
@[simp] theorem Panel.emit_pending (p : Panel) (e : Event) : (p.emit e).pending = p.pending := rfl
@[simp] theorem Panel.emit_hist (p : Panel) (e : Event) : (p.emit e).hist = p.hist ++ [e] := rfl
@[simp] theorem Panel.emit_lineHeld (p : Panel) (e : Event) : (p.emit e).lineHeld = p.lineHeld := rfl
@[simp] theorem Panel.emit_pin (p : Panel) (e : Event) : (p.emit e).pin = p.pin := rfl
@[simp] theorem Panel.emit_bus (p : Panel) (e : Event) : (p.emit e).bus = p.bus := rfl
@[simp] theorem Panel.emit_hold (p : Panel) (e : Event) : (p.emit e).hold = p.hold := rfl
@[simp] theorem Panel.emit_sendRaced (p : Panel) (e : Event) : (p.emit e).sendRaced = p.sendRaced := rfl

/-! ### `Panel.setFault` -/

@[simp] theorem Panel.setFault_life (p : Panel) (f : FaultName) : (p.setFault f).life = p.life := rfl
@[simp] theorem Panel.setFault_cfgVariant (p : Panel) (f : FaultName) : (p.setFault f).cfgVariant = p.cfgVariant := rfl
@[simp] theorem Panel.setFault_cfgRst (p : Panel) (f : FaultName) : (p.setFault f).cfgRst = p.cfgRst := rfl
@[simp] theorem Panel.setFault_cfgTable (p : Panel) (f : FaultName) : (p.setFault f).cfgTable = p.cfgTable := rfl
@[simp] theorem Panel.setFault_bpp (p : Panel) (f : FaultName) : (p.setFault f).bpp = p.bpp := rfl
@[simp] theorem Panel.setFault_orient (p : Panel) (f : FaultName) : (p.setFault f).orient = p.orient := rfl
@[simp] theorem Panel.setFault_colmodSh (p : Panel) (f : FaultName) : (p.setFault f).colmodSh = p.colmodSh := rfl
@[simp] theorem Panel.setFault_xGap (p : Panel) (f : FaultName) : (p.setFault f).xGap = p.xGap := rfl
@[simp] theorem Panel.setFault_yGap (p : Panel) (f : FaultName) : (p.setFault f).yGap = p.yGap := rfl
@[simp] theorem Panel.setFault_fsm (p : Panel) (f : FaultName) : (p.setFault f).fsm = p.fsm := rfl
@[simp] theorem Panel.setFault_row (p : Panel) (f : FaultName) : (p.setFault f).row = p.row := rfl
@[simp] theorem Panel.setFault_faults (p : Panel) (f : FaultName) : (p.setFault f).faults = p.faults.set f := rfl
@[simp] theorem Panel.setFault_ovr (p : Panel) (f : FaultName) : (p.setFault f).ovr = p.ovr := rfl
@[simp] theorem Panel.setFault_resetDone (p : Panel) (f : FaultName) : (p.setFault f).resetDone = p.resetDone := rfl
@[simp] theorem Panel.setFault_diag (p : Panel) (f : FaultName) : (p.setFault f).diag = p.diag := rfl
@[simp] theorem Panel.setFault_pending (p : Panel) (f : FaultName) : (p.setFault f).pending = p.pending := rfl
@[simp] theorem Panel.setFault_hist (p : Panel) (f : FaultName) : (p.setFault f).hist = p.hist := rfl
@[simp] theorem Panel.setFault_lineHeld (p : Panel) (f : FaultName) : (p.setFault f).lineHeld = p.lineHeld := rfl
@[simp] theorem Panel.setFault_pin (p : Panel) (f : FaultName) : (p.setFault f).pin = p.pin := rfl
@[simp] theorem Panel.setFault_bus (p : Panel) (f : FaultName) : (p.setFault f).bus = p.bus := rfl
@[simp] theorem Panel.setFault_hold (p : Panel) (f : FaultName) : (p.setFault f).hold = p.hold := rfl
@[simp] theorem Panel.setFault_sendRaced (p : Panel) (f : FaultName) : (p.setFault f).sendRaced = p.sendRaced := rfl

/-! ### `Panel.finish` -/

@[simp] theorem Panel.finish_life (p : Panel) (st : Status) : (p.finish st).life = p.life := rfl
@[simp] theorem Panel.finish_cfgVariant (p : Panel) (st : Status) : (p.finish st).cfgVariant = p.cfgVariant := rfl
@[simp] theorem Panel.finish_cfgRst (p : Panel) (st : Status) : (p.finish st).cfgRst = p.cfgRst := rfl
@[simp] theorem Panel.finish_cfgTable (p : Panel) (st : Status) : (p.finish st).cfgTable = p.cfgTable := rfl
@[simp] theorem Panel.finish_bpp (p : Panel) (st : Status) : (p.finish st).bpp = p.bpp := rfl
@[simp] theorem Panel.finish_orient (p : Panel) (st : Status) : (p.finish st).orient = p.orient := rfl
@[simp] theorem Panel.finish_colmodSh (p : Panel) (st : Status) : (p.finish st).colmodSh = p.colmodSh := rfl
@[simp] theorem Panel.finish_xGap (p : Panel) (st : Status) : (p.finish st).xGap = p.xGap := rfl
@[simp] theorem Panel.finish_yGap (p : Panel) (st : Status) : (p.finish st).yGap = p.yGap := rfl
@[simp] theorem Panel.finish_fsm (p : Panel) (st : Status) : (p.finish st).fsm = .idle := rfl
@[simp] theorem Panel.finish_row (p : Panel) (st : Status) : (p.finish st).row = p.row := rfl
@[simp] theorem Panel.finish_faults (p : Panel) (st : Status) : (p.finish st).faults = p.faults := rfl
@[simp] theorem Panel.finish_ovr (p : Panel) (st : Status) : (p.finish st).ovr = p.ovr := rfl
@[simp] theorem Panel.finish_resetDone (p : Panel) (st : Status) : (p.finish st).resetDone = p.resetDone := rfl
@[simp] theorem Panel.finish_diag (p : Panel) (st : Status) : (p.finish st).diag = p.diag := rfl
@[simp] theorem Panel.finish_pending (p : Panel) (st : Status) : (p.finish st).pending = p.pending := rfl
@[simp] theorem Panel.finish_hist (p : Panel) (st : Status) : (p.finish st).hist = p.hist ++ [.status st] := rfl
@[simp] theorem Panel.finish_lineHeld (p : Panel) (st : Status) : (p.finish st).lineHeld = p.lineHeld := rfl
@[simp] theorem Panel.finish_pin (p : Panel) (st : Status) : (p.finish st).pin = p.pin := rfl
@[simp] theorem Panel.finish_bus (p : Panel) (st : Status) : (p.finish st).bus = .free := rfl
@[simp] theorem Panel.finish_hold (p : Panel) (st : Status) : (p.finish st).hold = none := rfl
@[simp] theorem Panel.finish_sendRaced (p : Panel) (st : Status) : (p.finish st).sendRaced = p.sendRaced := rfl

/-! ### `Panel.startHold` -/

@[simp] theorem Panel.startHold_life (p : Panel) (ms : Nat) : (p.startHold ms).life = p.life := rfl
@[simp] theorem Panel.startHold_cfgVariant (p : Panel) (ms : Nat) : (p.startHold ms).cfgVariant = p.cfgVariant := rfl
@[simp] theorem Panel.startHold_cfgRst (p : Panel) (ms : Nat) : (p.startHold ms).cfgRst = p.cfgRst := rfl
@[simp] theorem Panel.startHold_cfgTable (p : Panel) (ms : Nat) : (p.startHold ms).cfgTable = p.cfgTable := rfl
@[simp] theorem Panel.startHold_bpp (p : Panel) (ms : Nat) : (p.startHold ms).bpp = p.bpp := rfl
@[simp] theorem Panel.startHold_orient (p : Panel) (ms : Nat) : (p.startHold ms).orient = p.orient := rfl
@[simp] theorem Panel.startHold_colmodSh (p : Panel) (ms : Nat) : (p.startHold ms).colmodSh = p.colmodSh := rfl
@[simp] theorem Panel.startHold_xGap (p : Panel) (ms : Nat) : (p.startHold ms).xGap = p.xGap := rfl
@[simp] theorem Panel.startHold_yGap (p : Panel) (ms : Nat) : (p.startHold ms).yGap = p.yGap := rfl
@[simp] theorem Panel.startHold_fsm (p : Panel) (ms : Nat) : (p.startHold ms).fsm = p.fsm := rfl
@[simp] theorem Panel.startHold_row (p : Panel) (ms : Nat) : (p.startHold ms).row = p.row := rfl
@[simp] theorem Panel.startHold_faults (p : Panel) (ms : Nat) : (p.startHold ms).faults = p.faults := rfl
@[simp] theorem Panel.startHold_ovr (p : Panel) (ms : Nat) : (p.startHold ms).ovr = p.ovr := rfl
@[simp] theorem Panel.startHold_resetDone (p : Panel) (ms : Nat) : (p.startHold ms).resetDone = p.resetDone := rfl
@[simp] theorem Panel.startHold_diag (p : Panel) (ms : Nat) : (p.startHold ms).diag = p.diag := rfl
@[simp] theorem Panel.startHold_pending (p : Panel) (ms : Nat) : (p.startHold ms).pending = p.pending := rfl
@[simp] theorem Panel.startHold_hist (p : Panel) (ms : Nat) : (p.startHold ms).hist = p.hist ++ [.waitStart ms] := rfl
@[simp] theorem Panel.startHold_lineHeld (p : Panel) (ms : Nat) : (p.startHold ms).lineHeld = p.lineHeld := rfl
@[simp] theorem Panel.startHold_pin (p : Panel) (ms : Nat) : (p.startHold ms).pin = p.pin := rfl
@[simp] theorem Panel.startHold_bus (p : Panel) (ms : Nat) : (p.startHold ms).bus = p.bus := rfl
@[simp] theorem Panel.startHold_hold (p : Panel) (ms : Nat) : (p.startHold ms).hold = some ms := rfl
@[simp] theorem Panel.startHold_sendRaced (p : Panel) (ms : Nat) : (p.startHold ms).sendRaced = p.sendRaced := rfl

/-! ### `Panel.poised` -/

@[simp] theorem Panel.poised_life (p : Panel) (f : Fsm) : (p.poised f).life = .live := rfl
@[simp] theorem Panel.poised_cfgVariant (p : Panel) (f : Fsm) : (p.poised f).cfgVariant = p.cfgVariant := rfl
@[simp] theorem Panel.poised_cfgRst (p : Panel) (f : Fsm) : (p.poised f).cfgRst = p.cfgRst := rfl
@[simp] theorem Panel.poised_cfgTable (p : Panel) (f : Fsm) : (p.poised f).cfgTable = p.cfgTable := rfl
@[simp] theorem Panel.poised_bpp (p : Panel) (f : Fsm) : (p.poised f).bpp = p.bpp := rfl
@[simp] theorem Panel.poised_orient (p : Panel) (f : Fsm) : (p.poised f).orient = p.orient := rfl
@[simp] theorem Panel.poised_colmodSh (p : Panel) (f : Fsm) : (p.poised f).colmodSh = p.colmodSh := rfl
@[simp] theorem Panel.poised_xGap (p : Panel) (f : Fsm) : (p.poised f).xGap = p.xGap := rfl
@[simp] theorem Panel.poised_yGap (p : Panel) (f : Fsm) : (p.poised f).yGap = p.yGap := rfl
@[simp] theorem Panel.poised_fsm (p : Panel) (f : Fsm) : (p.poised f).fsm = f := rfl
@[simp] theorem Panel.poised_row (p : Panel) (f : Fsm) : (p.poised f).row = p.row := rfl
@[simp] theorem Panel.poised_faults (p : Panel) (f : Fsm) : (p.poised f).faults = p.faults := rfl
@[simp] theorem Panel.poised_ovr (p : Panel) (f : Fsm) : (p.poised f).ovr = p.ovr := rfl
@[simp] theorem Panel.poised_resetDone (p : Panel) (f : Fsm) : (p.poised f).resetDone = p.resetDone := rfl
@[simp] theorem Panel.poised_diag (p : Panel) (f : Fsm) : (p.poised f).diag = p.diag := rfl
@[simp] theorem Panel.poised_pending (p : Panel) (f : Fsm) : (p.poised f).pending = p.pending := rfl
@[simp] theorem Panel.poised_hist (p : Panel) (f : Fsm) : (p.poised f).hist = p.hist := rfl
@[simp] theorem Panel.poised_lineHeld (p : Panel) (f : Fsm) : (p.poised f).lineHeld = p.lineHeld := rfl
@[simp] theorem Panel.poised_pin (p : Panel) (f : Fsm) : (p.poised f).pin = p.pin := rfl
@[simp] theorem Panel.poised_bus (p : Panel) (f : Fsm) : (p.poised f).bus = .free := rfl
@[simp] theorem Panel.poised_hold (p : Panel) (f : Fsm) : (p.poised f).hold = none := rfl
@[simp] theorem Panel.poised_sendRaced (p : Panel) (f : Fsm) : (p.poised f).sendRaced = p.sendRaced := rfl

/-! ### `Panel.updateOrient` -/

@[simp] theorem Panel.updateOrient_life (p : Panel) (par : Config.Params) (c : OrientCall) : (Panel.updateOrient par p c).life = p.life := rfl
@[simp] theorem Panel.updateOrient_cfgVariant (p : Panel) (par : Config.Params) (c : OrientCall) : (Panel.updateOrient par p c).cfgVariant = p.cfgVariant := rfl
@[simp] theorem Panel.updateOrient_cfgRst (p : Panel) (par : Config.Params) (c : OrientCall) : (Panel.updateOrient par p c).cfgRst = p.cfgRst := rfl
@[simp] theorem Panel.updateOrient_cfgTable (p : Panel) (par : Config.Params) (c : OrientCall) : (Panel.updateOrient par p c).cfgTable = p.cfgTable := rfl
@[simp] theorem Panel.updateOrient_bpp (p : Panel) (par : Config.Params) (c : OrientCall) : (Panel.updateOrient par p c).bpp = p.bpp := rfl
@[simp] theorem Panel.updateOrient_orient (p : Panel) (par : Config.Params) (c : OrientCall) : (Panel.updateOrient par p c).orient = orientAfter par p.orient c := rfl
@[simp] theorem Panel.updateOrient_colmodSh (p : Panel) (par : Config.Params) (c : OrientCall) : (Panel.updateOrient par p c).colmodSh = p.colmodSh := rfl
@[simp] theorem Panel.updateOrient_xGap (p : Panel) (par : Config.Params) (c : OrientCall) : (Panel.updateOrient par p c).xGap = p.xGap := rfl
@[simp] theorem Panel.updateOrient_yGap (p : Panel) (par : Config.Params) (c : OrientCall) : (Panel.updateOrient par p c).yGap = p.yGap := rfl
@[simp] theorem Panel.updateOrient_fsm (p : Panel) (par : Config.Params) (c : OrientCall) : (Panel.updateOrient par p c).fsm = .oriSend := rfl
@[simp] theorem Panel.updateOrient_row (p : Panel) (par : Config.Params) (c : OrientCall) : (Panel.updateOrient par p c).row = p.row := rfl
@[simp] theorem Panel.updateOrient_faults (p : Panel) (par : Config.Params) (c : OrientCall) : (Panel.updateOrient par p c).faults = p.faults := rfl
@[simp] theorem Panel.updateOrient_ovr (p : Panel) (par : Config.Params) (c : OrientCall) : (Panel.updateOrient par p c).ovr = p.ovr := rfl
@[simp] theorem Panel.updateOrient_resetDone (p : Panel) (par : Config.Params) (c : OrientCall) : (Panel.updateOrient par p c).resetDone = p.resetDone := rfl
@[simp] theorem Panel.updateOrient_diag (p : Panel) (par : Config.Params) (c : OrientCall) : (Panel.updateOrient par p c).diag = p.diag := rfl
@[simp] theorem Panel.updateOrient_pending (p : Panel) (par : Config.Params) (c : OrientCall) : (Panel.updateOrient par p c).pending = p.pending := rfl
@[simp] theorem Panel.updateOrient_hist (p : Panel) (par : Config.Params) (c : OrientCall) : (Panel.updateOrient par p c).hist = p.hist := rfl
@[simp] theorem Panel.updateOrient_lineHeld (p : Panel) (par : Config.Params) (c : OrientCall) : (Panel.updateOrient par p c).lineHeld = p.lineHeld := rfl
@[simp] theorem Panel.updateOrient_pin (p : Panel) (par : Config.Params) (c : OrientCall) : (Panel.updateOrient par p c).pin = p.pin := rfl
@[simp] theorem Panel.updateOrient_bus (p : Panel) (par : Config.Params) (c : OrientCall) : (Panel.updateOrient par p c).bus = p.bus := rfl
@[simp] theorem Panel.updateOrient_hold (p : Panel) (par : Config.Params) (c : OrientCall) : (Panel.updateOrient par p c).hold = p.hold := rfl
@[simp] theorem Panel.updateOrient_sendRaced (p : Panel) (par : Config.Params) (c : OrientCall) : (Panel.updateOrient par p c).sendRaced = p.sendRaced := rfl

/-! ### `State.onPanel` -/

@[simp] theorem State.onPanel_panel (s : State) (f : Panel → Panel) : (s.onPanel f).panel = f s.panel := rfl
@[simp] theorem State.onPanel_others (s : State) (f : Panel → Panel) : (s.onPanel f).others = s.others := rfl
@[simp] theorem State.onPanel_params (s : State) (f : Panel → Panel) : (s.onPanel f).params = s.params := rfl
@[simp] theorem State.onPanel_mem (s : State) (f : Panel → Panel) : (s.onPanel f).mem = s.mem := rfl
@[simp] theorem State.onPanel_reqs (s : State) (f : Panel → Panel) : (s.onPanel f).reqs = s.reqs := rfl
@[simp] theorem State.onPanel_inputs (s : State) (f : Panel → Panel) : (s.onPanel f).inputs = s.inputs := rfl
@[simp] theorem State.onPanel_answers (s : State) (f : Panel → Panel) : (s.onPanel f).answers = s.answers := rfl
@[simp] theorem State.onPanel_draws (s : State) (f : Panel → Panel) : (s.onPanel f).draws = s.draws := rfl

/-! ### `State.setAside` -/

@[simp] theorem State.setAside_panel (s : State) : (s.setAside).panel = Panel.absent := rfl
@[simp] theorem State.setAside_others (s : State) : (s.setAside).others = s.others ++ [s.panel] := rfl
@[simp] theorem State.setAside_params (s : State) : (s.setAside).params = s.params := rfl
@[simp] theorem State.setAside_mem (s : State) : (s.setAside).mem = s.mem := rfl
@[simp] theorem State.setAside_reqs (s : State) : (s.setAside).reqs = s.reqs := rfl
@[simp] theorem State.setAside_inputs (s : State) : (s.setAside).inputs = s.inputs := rfl
@[simp] theorem State.setAside_answers (s : State) : (s.setAside).answers = s.answers := rfl
@[simp] theorem State.setAside_draws (s : State) : (s.setAside).draws = s.draws := rfl

/-! ### `State.hostWrite` -/

@[simp] theorem State.hostWrite_panel (s : State) (a : Nat) (b : Byte) : (s.hostWrite a b).panel = s.panel.noteWrite a := rfl
@[simp] theorem State.hostWrite_others (s : State) (a : Nat) (b : Byte) : (s.hostWrite a b).others = s.others.map (·.noteWrite a) := rfl
@[simp] theorem State.hostWrite_params (s : State) (a : Nat) (b : Byte) : (s.hostWrite a b).params = s.params := rfl
@[simp] theorem State.hostWrite_mem (s : State) (a : Nat) (b : Byte) : (s.hostWrite a b).mem = s.mem.write a b := rfl
@[simp] theorem State.hostWrite_reqs (s : State) (a : Nat) (b : Byte) : (s.hostWrite a b).reqs = s.reqs := rfl
@[simp] theorem State.hostWrite_inputs (s : State) (a : Nat) (b : Byte) : (s.hostWrite a b).inputs = s.inputs := rfl
@[simp] theorem State.hostWrite_answers (s : State) (a : Nat) (b : Byte) : (s.hostWrite a b).answers = s.answers := rfl
@[simp] theorem State.hostWrite_draws (s : State) (a : Nat) (b : Byte) : (s.hostWrite a b).draws = s.draws := rfl

end Sys2Proof.Machine
end

