-- ==== Sys2Proof/Laws/Ops.lean ====
section
/-! SUPPORT. What each shared operation can do, said once. -/

namespace Sys2Proof.Machine

open Config (Params)

/-! ### Accepting a request (R238) -/

theorem State.accept_live (s : State) (start : Panel → Panel) (hl : s.panel.life = .live) (hf : s.panel.fsm = .idle) :
    s.accept start = .next (s.onPanel start) := by
  simp [State.accept, hl, hf]

theorem State.accept_destroyed (s : State) (start : Panel → Panel) (hl : s.panel.life = .destroyed)
    (hf : s.panel.fsm = .idle) : s.accept start = .next (s.onPanel (·.setFault .useAfterDestroy)) := by
  simp [State.accept, hl, hf]

theorem State.accept_absent (s : State) (start : Panel → Panel) (hl : s.panel.life = .absent)
    (hf : s.panel.fsm = .idle) : s.accept start = .refused .noObject := by
  simp [State.accept, hl, hf]

theorem State.accept_busy (s : State) (start : Panel → Panel) (hf : s.panel.fsm ≠ .idle) :
    s.accept start = .next (s.onPanel (·.setFault .concurrentCall)) := by
  simp [State.accept, hf]

/-- Every way a request can be accepted. -/
theorem State.accept_cases {s t : State} {start : Panel → Panel} (h : s.accept start = .next t) :
    (s.panel.fsm = .idle ∧ s.panel.life = .live ∧ t = s.onPanel start) ∨
    (s.panel.fsm = .idle ∧ s.panel.life = .destroyed ∧ t = s.onPanel (·.setFault .useAfterDestroy)) ∨
    (s.panel.fsm ≠ .idle ∧ t = s.onPanel (·.setFault .concurrentCall)) := by
  by_cases hf : s.panel.fsm = .idle
  · cases hl : s.panel.life with
    | live => rw [s.accept_live start hl hf] at h; cases h; exact .inl ⟨hf, rfl, rfl⟩
    | destroyed => rw [s.accept_destroyed start hl hf] at h; cases h; exact .inr (.inl ⟨hf, rfl, rfl⟩)
    | absent => rw [s.accept_absent start hl hf] at h; cases h
  · rw [s.accept_busy start hf] at h; cases h; exact .inr (.inr ⟨hf, rfl⟩)

/-! ### Free draws -/

theorem State.ask_listed (s : State) (b : Bool) (rest : List Bool) (h : s.answers = b :: rest) :
    s.ask = (b, { s with answers := rest }) := by
  simp [State.ask, h]

@[simp] theorem State.ask_panel (s : State) : s.ask.2.panel = s.panel := by unfold State.ask; split <;> rfl
@[simp] theorem State.ask_others (s : State) : s.ask.2.others = s.others := by unfold State.ask; split <;> rfl
@[simp] theorem State.ask_params (s : State) : s.ask.2.params = s.params := by unfold State.ask; split <;> rfl
@[simp] theorem State.ask_mem (s : State) : s.ask.2.mem = s.mem := by unfold State.ask; split <;> rfl
@[simp] theorem State.ask_reqs (s : State) : s.ask.2.reqs = s.reqs := by unfold State.ask; split <;> rfl
@[simp] theorem State.ask_inputs (s : State) : s.ask.2.inputs = s.inputs := by unfold State.ask; split <;> rfl

/-! ### Transactions -/

theorem State.submit_emitted (s : State) (i : Instr) (t : Transaction) (h : s.panel.nextRow = some i) :
    s.submit i t = .next (s.onPanel fun p => { p with bus := .submitted t }) := by
  simp [State.submit, h]

theorem State.submit_cases {s u : State} {i : Instr} {t : Transaction} (h : s.submit i t = .next u) :
    s.panel.nextRow = some i ∧ u = s.onPanel fun p => { p with bus := .submitted t } := by
  unfold State.submit at h
  split at h
  · cases h; exact ⟨‹_›, rfl⟩
  · cases h

theorem State.transmit_emitted (s : State) (i : Instr) (t : Transaction) (f : BusTxn) (h : s.panel.nextRow = some i) :
    s.transmit i t f = .next (s.onPanel fun p => { p with bus := .awaiting t, hist := p.hist ++ [.bus f] }) := by
  simp [State.transmit, h]

theorem State.transmit_cases {s u : State} {i : Instr} {t : Transaction} {f : BusTxn}
    (h : s.transmit i t f = .next u) : s.panel.nextRow = some i ∧
      u = s.onPanel fun p => { p with bus := .awaiting t, hist := p.hist ++ [.bus f] } := by
  unfold State.transmit at h
  split at h
  · cases h; exact ⟨‹_›, rfl⟩
  · cases h

theorem tooLong_of_fits {par : Params} {op : Byte} {payload : List Byte} (h : payloadFits par payload.length) :
    tooLong par (.cmd op payload) = false := by
  unfold tooLong
  cases hm : par.maxPayload with
  | none => simp
  | some limit => simpa using h limit hm

theorem tooLong_nil (par : Params) (op : Byte) : tooLong par (.cmd op []) = false :=
  tooLong_of_fits (by intro _ _; simp)

@[simp] theorem tooLong_pix (par : Params) (op : Byte) (buf n : Nat) : tooLong par (.pix op buf n) = false := rfl

theorem State.answer_listed (s : State) (t : Transaction) (b : Bool) (rest : List Bool)
    (hf : tooLong s.params t = false) (h : s.answers = b :: rest) :
    s.answer t = { s with answers := rest, panel := s.panel.acknowledge t b } := by
  simp [State.answer, hf, s.ask_listed b rest h, State.onPanel]

theorem State.answer_tooLong (s : State) (t : Transaction) (h : tooLong s.params t = true) :
    s.answer t = s.onPanel (·.acknowledge t false) := by
  simp [State.answer, h]

/-- Whatever the environment answers, only the addressed panel and the answers move. -/
theorem State.answer_panel (s : State) (t : Transaction) : ∃ ok, (s.answer t).panel = s.panel.acknowledge t ok := by
  unfold State.answer
  split
  · exact ⟨false, rfl⟩
  · exact ⟨s.ask.1, by simp⟩

@[simp] theorem State.answer_others (s : State) (t : Transaction) : (s.answer t).others = s.others := by
  unfold State.answer; split <;> simp
@[simp] theorem State.answer_params (s : State) (t : Transaction) : (s.answer t).params = s.params := by
  unfold State.answer; split <;> simp
@[simp] theorem State.answer_mem (s : State) (t : Transaction) : (s.answer t).mem = s.mem := by
  unfold State.answer; split <;> simp
@[simp] theorem State.answer_inputs (s : State) (t : Transaction) : (s.answer t).inputs = s.inputs := by
  unfold State.answer; split <;> simp
@[simp] theorem State.answer_reqs (s : State) (t : Transaction) : (s.answer t).reqs = s.reqs := by
  unfold State.answer; split <;> simp

theorem Panel.acknowledge_err (p : Panel) (t : Transaction) :
    p.acknowledge t false = { p with
      fsm := .idle, bus := .free, hold := none
      hist := p.hist ++ [.ack false, .status (.transportError t.op8)] } := by
  simp [Panel.acknowledge, Panel.finish]

theorem Panel.acknowledge_cmd (p : Panel) (op : Byte) (payload : List Byte) :
    p.acknowledge (.cmd op payload) true =
      Panel.afterOk { p with bus := .free, hist := p.hist ++ [.ack true] } := rfl

theorem Panel.acknowledge_pix (p : Panel) (op : Byte) (buf n : Nat) :
    p.acknowledge (.pix op buf n) true = Panel.afterOk { p with
      bus := .free, hist := p.hist ++ [.ack true], pending := p.pending ++ [⟨buf, n, p.sendRaced⟩] } := rfl

/-! ### Host writes (R74, R76) -/

/-- A host write touches nothing of an object but its faults and the marks of its transfers. -/
theorem Panel.noteWrite_frame (p : Panel) (a : Nat) : p.noteWrite a = { p with
    faults := (p.noteWrite a).faults, pending := (p.noteWrite a).pending, sendRaced := (p.noteWrite a).sendRaced } := by
  unfold Panel.noteWrite; split <;> rfl

/-- In IDLE no draw is in progress. -/
theorem Panel.drawBuffer_idle (p : Panel) (h : p.fsm = .idle) : p.drawBuffer = none := by
  simp [Panel.drawBuffer, h]

end Sys2Proof.Machine
end

