-- ==== Sys2Proof/Laws/Create.lean ====
section
/-! SUPPORT. What create leaves alone outside the slot it fills, and every way a completion can go. -/

namespace Sys2Proof.Machine

theorem State.claimLine_rest (s : State) (l : Option ResetLine) :
    (s.claimLine l).2.others = s.others ∧ (s.claimLine l).2.mem = s.mem ∧ (s.claimLine l).2.params = s.params ∧
      (s.claimLine l).2.inputs = s.inputs ∧ (s.claimLine l).2.reqs = s.reqs := by
  cases l <;> simp [State.claimLine]

theorem State.freeLevel_rest (s : State) (l : Option ResetLine) :
    (s.freeLevel l).others = s.others ∧ (s.freeLevel l).mem = s.mem ∧ (s.freeLevel l).params = s.params ∧
      (s.freeLevel l).inputs = s.inputs ∧ (s.freeLevel l).reqs = s.reqs := by
  cases l <;> simp [State.freeLevel]

/-- create moves the slot and the environment's answers only. -/
theorem State.createHere_rest (s : State) (t : Option Variant) (l : Option ResetLine) (co bpp : Byte)
    (tab : Option (List InitRow)) :
    (s.createHere t l co bpp tab).others = s.others ∧ (s.createHere t l co bpp tab).mem = s.mem ∧
      (s.createHere t l co bpp tab).params = s.params ∧ (s.createHere t l co bpp tab).inputs = s.inputs ∧
      (s.createHere t l co bpp tab).reqs = s.reqs := by
  unfold State.createHere State.configure
  cases t with
  | none => simp
  | some v =>
    simp only
    split
    · split
      · split <;> simp [State.claimLine_rest, State.freeLevel_rest]
      · simp [State.claimLine_rest]
    · simp

/-- Every way a completion can go (R115): nothing pending; a raced buffer; a buffer the host left alone. -/
theorem State.complete_cases {s t : State} (h : s.complete = .next t) :
    (s.panel.pending = [] ∧ t = s) ∨
    (∃ e rest bytes n, s.panel.pending = e :: rest ∧
      (e.raced = false → Memory.readMany s.mem e.buf e.n = some bytes) ∧
      t = { s with
        draws := n
        panel := { s.panel with pending := rest, hist := s.panel.hist ++ [.pixels e.buf bytes] } }) := by
  unfold State.complete at h
  split at h
  · cases h; exact .inl ⟨‹_›, rfl⟩
  · rename_i e rest hp
    split at h
    · rename_i hr
      cases h
      exact .inr ⟨e, rest, _, _, hp, by simp [hr], rfl⟩
    · split at h
      · rename_i bytes hb
        cases h
        exact .inr ⟨e, rest, bytes, s.draws, hp, fun _ => hb, rfl⟩
      · cases h

end Sys2Proof.Machine
end

