-- ==== Sys2Proof/Laws/Decode.lean ====
section
/-! SUPPORT. Every reader of an operand field undoes its writer, whatever follows it. -/

namespace Sys2Proof

@[simp] theorem andThen_ok {α β : Type} (a : α) (bs : List Byte) (f : α → List Byte → Read β) :
    andThen (.ok (a, bs)) f = f a bs := rfl

@[simp] theorem andThen_error {α β : Type} (e : DecodeError) (f : α → List Byte → Read β) :
    andThen (.error e) f = .error e := rfl

@[simp] theorem getByte_cons (b : Byte) (bs : List Byte) : getByte (b :: bs) = .ok (b, bs) := rfl

theorem getNat_putNatFuel (fuel n : Nat) (h : n ≤ fuel) (bs : List Byte) :
    getNat (putNatFuel fuel n ++ bs) = .ok (n, bs) := by
  induction fuel generalizing n with
  | zero =>
    obtain rfl : n = 0 := by omega
    simp [putNatFuel, getNat]
  | succ fuel ih =>
    unfold putNatFuel
    split
    · rename_i hn
      have h8 : n % 256 = n := Nat.mod_eq_of_lt (by omega)
      simp [getNat, h8, hn]
    · rename_i hn
      have h8 : (n % 128 + 128) % 256 = n % 128 + 128 := Nat.mod_eq_of_lt (by omega)
      have hlt : ¬ n % 128 + 128 < 128 := by omega
      have hdiv : n / 128 ≤ fuel := by omega
      simp only [List.cons_append, getNat, BitVec.toNat_ofNat, Nat.reducePow, h8, hlt, if_false, ih _ hdiv]
      congr 2
      omega

@[simp] theorem getNat_putNat (n : Nat) (bs : List Byte) : getNat (putNat n ++ bs) = .ok (n, bs) :=
  getNat_putNatFuel n n le_rfl bs

/-- The two bytes of a 16-bit value, put back together. -/
theorem half_bytes (v : Half) : (v.extractLsb' 8 8 ++ v.extractLsb' 0 8 : BitVec 16) = v := by
  rw [BitVec.extractLsb'_append_extractLsb'_eq_extractLsb' (by rfl)]
  simp

/-- The four bytes of a 32-bit value, put back together. -/
theorem word_bytes (v : Word) :
    (v.extractLsb' 24 8 ++ v.extractLsb' 16 8 ++ v.extractLsb' 8 8 ++ v.extractLsb' 0 8 : BitVec 32) = v := by
  rw [BitVec.extractLsb'_append_extractLsb'_eq_extractLsb' (by rfl),
    BitVec.extractLsb'_append_extractLsb'_eq_extractLsb' (by rfl),
    BitVec.extractLsb'_append_extractLsb'_eq_extractLsb' (by rfl)]
  exact BitVec.extractLsb'_eq_self

@[simp] theorem getHalf_putHalf (v : Half) (bs : List Byte) : getHalf (putHalf v ++ bs) = .ok (v, bs) :=
  congrArg (fun w => Except.ok (w, bs)) (half_bytes v)

@[simp] theorem getWord_putWord (v : Word) (bs : List Byte) : getWord (putWord v ++ bs) = .ok (v, bs) :=
  congrArg (fun w => Except.ok (w, bs)) (word_bytes v)

@[simp] theorem getBool_putBool (b : Bool) (bs : List Byte) : getBool (putBool b ++ bs) = .ok (b, bs) := by
  cases b <;> rfl

@[simp] theorem getBytes_append (p bs : List Byte) : getBytes p.length (p ++ bs) = .ok (p, bs) := by
  induction p with
  | nil => rfl
  | cons b p ih => simp [getBytes, ih]

@[simp] theorem getTransport_putTransport (t : Option Variant) (bs : List Byte) :
    getTransport (putTransport t ++ bs) = .ok (t, bs) := by
  rcases t with _ | _ | _ <;> rfl

@[simp] theorem getResetLine_putResetLine (l : Option ResetLine) (bs : List Byte) :
    getResetLine (putResetLine l ++ bs) = .ok (l, bs) := by
  cases l <;> simp [getResetLine, putResetLine]

@[simp] theorem getRow_putRow (r : InitRow) (bs : List Byte) : getRow (putRow r ++ bs) = .ok (r, bs) := by
  simp [getRow, putRow]

@[simp] theorem getRows_putRows (rs : List InitRow) (bs : List Byte) :
    getRows rs.length (putRows rs ++ bs) = .ok (rs, bs) := by
  induction rs with
  | nil => rfl
  | cons r rs ih => simp [getRows, putRows, ih]

@[simp] theorem getTable_putTable (t : Option (List InitRow)) (bs : List Byte) :
    getTable (putTable t ++ bs) = .ok (t, bs) := by
  cases t <;> simp [getTable, putTable]

@[simp] theorem getPixels_putPixels (buf n : Nat) (h : n < 2 ^ Config.lenBits) (bs : List Byte) :
    getPixels (putPixels buf n ++ bs) = .ok ((buf, n), bs) := by
  simp [getPixels, putPixels, h]

end Sys2Proof
end

