-- ==== Sys2Proof/Laws/History.lean ====
section
/-! SUPPORT. What is read off a history, of one history after another. -/

namespace Sys2Proof.Machine

@[simp] theorem busEvents_append (h k : List Event) : busEvents (h ++ k) = busEvents h ++ busEvents k :=
  List.filterMap_append

@[simp] theorem waitEvents_append (h k : List Event) : waitEvents (h ++ k) = waitEvents h ++ waitEvents k :=
  List.filter_append ..

@[simp] theorem dataPhases_append (h k : List Event) : dataPhases (h ++ k) = dataPhases h ++ dataPhases k :=
  List.filterMap_append

@[simp] theorem rowWaits_cons (r : InitRow) (rs : List InitRow) :
    rowWaits (r :: rs) =
      (if 0 < r.delayMs then [.waitStart r.delayMs, .waitEnd r.delayMs] else []) ++ rowWaits rs := rfl

@[simp] theorem unanswered_append (b : Bool) (h k : List Event) :
    unanswered b (h ++ k) = unanswered (unanswered b h) k := by
  induction h generalizing b with
  | nil => rfl
  | cons e h ih => cases e <;> exact ih _

end Sys2Proof.Machine
end

