-- ==== Sys2Proof/Laws/Kept.lean ====
section
/-! SUPPORT. What the answers of the Transport and the Timer leave alone: every register of the block (R29). -/

namespace Sys2Proof.Machine

/-! ### `Panel.afterOk` -/

@[simp] theorem Panel.afterOk_life (p : Panel) : (p.afterOk).life = p.life := by
  unfold Panel.afterOk; split <;> rfl
@[simp] theorem Panel.afterOk_cfgVariant (p : Panel) : (p.afterOk).cfgVariant = p.cfgVariant := by
  unfold Panel.afterOk; split <;> rfl
@[simp] theorem Panel.afterOk_cfgRst (p : Panel) : (p.afterOk).cfgRst = p.cfgRst := by
  unfold Panel.afterOk; split <;> rfl
@[simp] theorem Panel.afterOk_cfgTable (p : Panel) : (p.afterOk).cfgTable = p.cfgTable := by
  unfold Panel.afterOk; split <;> rfl
@[simp] theorem Panel.afterOk_bpp (p : Panel) : (p.afterOk).bpp = p.bpp := by
  unfold Panel.afterOk; split <;> rfl
@[simp] theorem Panel.afterOk_orient (p : Panel) : (p.afterOk).orient = p.orient := by
  unfold Panel.afterOk; split <;> rfl
@[simp] theorem Panel.afterOk_colmodSh (p : Panel) : (p.afterOk).colmodSh = p.colmodSh := by
  unfold Panel.afterOk; split <;> rfl
@[simp] theorem Panel.afterOk_xGap (p : Panel) : (p.afterOk).xGap = p.xGap := by
  unfold Panel.afterOk; split <;> rfl
@[simp] theorem Panel.afterOk_yGap (p : Panel) : (p.afterOk).yGap = p.yGap := by
  unfold Panel.afterOk; split <;> rfl
@[simp] theorem Panel.afterOk_faults (p : Panel) : (p.afterOk).faults = p.faults := by
  unfold Panel.afterOk; split <;> rfl
@[simp] theorem Panel.afterOk_ovr (p : Panel) : (p.afterOk).ovr = p.ovr := by
  unfold Panel.afterOk; split <;> rfl
@[simp] theorem Panel.afterOk_diag (p : Panel) : (p.afterOk).diag = p.diag := by
  unfold Panel.afterOk; split <;> rfl
@[simp] theorem Panel.afterOk_lineHeld (p : Panel) : (p.afterOk).lineHeld = p.lineHeld := by
  unfold Panel.afterOk; split <;> rfl
@[simp] theorem Panel.afterOk_pin (p : Panel) : (p.afterOk).pin = p.pin := by
  unfold Panel.afterOk; split <;> rfl
@[simp] theorem Panel.afterOk_sendRaced (p : Panel) : (p.afterOk).sendRaced = p.sendRaced := by
  unfold Panel.afterOk; split <;> rfl
@[simp] theorem Panel.afterOk_resetDone (p : Panel) : (p.afterOk).resetDone = p.resetDone := by
  unfold Panel.afterOk; split <;> rfl

/-! ### `Panel.accepted` -/

@[simp] theorem Panel.accepted_life (p : Panel) (t : Transaction) : (p.accepted t).life = p.life := by
  unfold Panel.accepted; split <;> rfl
@[simp] theorem Panel.accepted_cfgVariant (p : Panel) (t : Transaction) : (p.accepted t).cfgVariant = p.cfgVariant := by
  unfold Panel.accepted; split <;> rfl
@[simp] theorem Panel.accepted_cfgRst (p : Panel) (t : Transaction) : (p.accepted t).cfgRst = p.cfgRst := by
  unfold Panel.accepted; split <;> rfl
@[simp] theorem Panel.accepted_cfgTable (p : Panel) (t : Transaction) : (p.accepted t).cfgTable = p.cfgTable := by
  unfold Panel.accepted; split <;> rfl
@[simp] theorem Panel.accepted_bpp (p : Panel) (t : Transaction) : (p.accepted t).bpp = p.bpp := by
  unfold Panel.accepted; split <;> rfl
@[simp] theorem Panel.accepted_orient (p : Panel) (t : Transaction) : (p.accepted t).orient = p.orient := by
  unfold Panel.accepted; split <;> rfl
@[simp] theorem Panel.accepted_colmodSh (p : Panel) (t : Transaction) : (p.accepted t).colmodSh = p.colmodSh := by
  unfold Panel.accepted; split <;> rfl
@[simp] theorem Panel.accepted_xGap (p : Panel) (t : Transaction) : (p.accepted t).xGap = p.xGap := by
  unfold Panel.accepted; split <;> rfl
@[simp] theorem Panel.accepted_yGap (p : Panel) (t : Transaction) : (p.accepted t).yGap = p.yGap := by
  unfold Panel.accepted; split <;> rfl
@[simp] theorem Panel.accepted_faults (p : Panel) (t : Transaction) : (p.accepted t).faults = p.faults := by
  unfold Panel.accepted; split <;> rfl
@[simp] theorem Panel.accepted_ovr (p : Panel) (t : Transaction) : (p.accepted t).ovr = p.ovr := by
  unfold Panel.accepted; split <;> rfl
@[simp] theorem Panel.accepted_diag (p : Panel) (t : Transaction) : (p.accepted t).diag = p.diag := by
  unfold Panel.accepted; split <;> rfl
@[simp] theorem Panel.accepted_lineHeld (p : Panel) (t : Transaction) : (p.accepted t).lineHeld = p.lineHeld := by
  unfold Panel.accepted; split <;> rfl
@[simp] theorem Panel.accepted_pin (p : Panel) (t : Transaction) : (p.accepted t).pin = p.pin := by
  unfold Panel.accepted; split <;> rfl
@[simp] theorem Panel.accepted_sendRaced (p : Panel) (t : Transaction) : (p.accepted t).sendRaced = p.sendRaced := by
  unfold Panel.accepted; split <;> rfl
@[simp] theorem Panel.accepted_resetDone (p : Panel) (t : Transaction) : (p.accepted t).resetDone = p.resetDone := by
  unfold Panel.accepted; split <;> rfl

/-! ### `Panel.afterHold` -/

@[simp] theorem Panel.afterHold_life (p : Panel) : (p.afterHold).life = p.life := by
  unfold Panel.afterHold; split <;> rfl
@[simp] theorem Panel.afterHold_cfgVariant (p : Panel) : (p.afterHold).cfgVariant = p.cfgVariant := by
  unfold Panel.afterHold; split <;> rfl
@[simp] theorem Panel.afterHold_cfgRst (p : Panel) : (p.afterHold).cfgRst = p.cfgRst := by
  unfold Panel.afterHold; split <;> rfl
@[simp] theorem Panel.afterHold_cfgTable (p : Panel) : (p.afterHold).cfgTable = p.cfgTable := by
  unfold Panel.afterHold; split <;> rfl
@[simp] theorem Panel.afterHold_bpp (p : Panel) : (p.afterHold).bpp = p.bpp := by
  unfold Panel.afterHold; split <;> rfl
@[simp] theorem Panel.afterHold_orient (p : Panel) : (p.afterHold).orient = p.orient := by
  unfold Panel.afterHold; split <;> rfl
@[simp] theorem Panel.afterHold_colmodSh (p : Panel) : (p.afterHold).colmodSh = p.colmodSh := by
  unfold Panel.afterHold; split <;> rfl
@[simp] theorem Panel.afterHold_xGap (p : Panel) : (p.afterHold).xGap = p.xGap := by
  unfold Panel.afterHold; split <;> rfl
@[simp] theorem Panel.afterHold_yGap (p : Panel) : (p.afterHold).yGap = p.yGap := by
  unfold Panel.afterHold; split <;> rfl
@[simp] theorem Panel.afterHold_faults (p : Panel) : (p.afterHold).faults = p.faults := by
  unfold Panel.afterHold; split <;> rfl
@[simp] theorem Panel.afterHold_ovr (p : Panel) : (p.afterHold).ovr = p.ovr := by
  unfold Panel.afterHold; split <;> rfl
@[simp] theorem Panel.afterHold_diag (p : Panel) : (p.afterHold).diag = p.diag := by
  unfold Panel.afterHold; split <;> rfl
@[simp] theorem Panel.afterHold_lineHeld (p : Panel) : (p.afterHold).lineHeld = p.lineHeld := by
  unfold Panel.afterHold; split <;> rfl
@[simp] theorem Panel.afterHold_pin (p : Panel) : (p.afterHold).pin = p.pin := by
  unfold Panel.afterHold; split <;> rfl
@[simp] theorem Panel.afterHold_sendRaced (p : Panel) : (p.afterHold).sendRaced = p.sendRaced := by
  unfold Panel.afterHold; split <;> rfl

/-! ### `Panel.setReset` -/

@[simp] theorem Panel.setReset_life (p : Panel) (a : Bool) : (p.setReset a).life = p.life := by
  unfold Panel.setReset; split <;> rfl
@[simp] theorem Panel.setReset_cfgVariant (p : Panel) (a : Bool) : (p.setReset a).cfgVariant = p.cfgVariant := by
  unfold Panel.setReset; split <;> rfl
@[simp] theorem Panel.setReset_cfgRst (p : Panel) (a : Bool) : (p.setReset a).cfgRst = p.cfgRst := by
  unfold Panel.setReset; split <;> rfl
@[simp] theorem Panel.setReset_cfgTable (p : Panel) (a : Bool) : (p.setReset a).cfgTable = p.cfgTable := by
  unfold Panel.setReset; split <;> rfl
@[simp] theorem Panel.setReset_bpp (p : Panel) (a : Bool) : (p.setReset a).bpp = p.bpp := by
  unfold Panel.setReset; split <;> rfl
@[simp] theorem Panel.setReset_orient (p : Panel) (a : Bool) : (p.setReset a).orient = p.orient := by
  unfold Panel.setReset; split <;> rfl
@[simp] theorem Panel.setReset_colmodSh (p : Panel) (a : Bool) : (p.setReset a).colmodSh = p.colmodSh := by
  unfold Panel.setReset; split <;> rfl
@[simp] theorem Panel.setReset_xGap (p : Panel) (a : Bool) : (p.setReset a).xGap = p.xGap := by
  unfold Panel.setReset; split <;> rfl
@[simp] theorem Panel.setReset_yGap (p : Panel) (a : Bool) : (p.setReset a).yGap = p.yGap := by
  unfold Panel.setReset; split <;> rfl
@[simp] theorem Panel.setReset_faults (p : Panel) (a : Bool) : (p.setReset a).faults = p.faults := by
  unfold Panel.setReset; split <;> rfl
@[simp] theorem Panel.setReset_ovr (p : Panel) (a : Bool) : (p.setReset a).ovr = p.ovr := by
  unfold Panel.setReset; split <;> rfl
@[simp] theorem Panel.setReset_diag (p : Panel) (a : Bool) : (p.setReset a).diag = p.diag := by
  unfold Panel.setReset; split <;> rfl
@[simp] theorem Panel.setReset_lineHeld (p : Panel) (a : Bool) : (p.setReset a).lineHeld = p.lineHeld := by
  unfold Panel.setReset; split <;> rfl
@[simp] theorem Panel.setReset_fsm (p : Panel) (a : Bool) : (p.setReset a).fsm = p.fsm := by
  unfold Panel.setReset; split <;> rfl
@[simp] theorem Panel.setReset_row (p : Panel) (a : Bool) : (p.setReset a).row = p.row := by
  unfold Panel.setReset; split <;> rfl
@[simp] theorem Panel.setReset_resetDone (p : Panel) (a : Bool) : (p.setReset a).resetDone = p.resetDone := by
  unfold Panel.setReset; split <;> rfl
@[simp] theorem Panel.setReset_pending (p : Panel) (a : Bool) : (p.setReset a).pending = p.pending := by
  unfold Panel.setReset; split <;> rfl
@[simp] theorem Panel.setReset_bus (p : Panel) (a : Bool) : (p.setReset a).bus = p.bus := by
  unfold Panel.setReset; split <;> rfl
@[simp] theorem Panel.setReset_hold (p : Panel) (a : Bool) : (p.setReset a).hold = p.hold := by
  unfold Panel.setReset; split <;> rfl
@[simp] theorem Panel.setReset_sendRaced (p : Panel) (a : Bool) : (p.setReset a).sendRaced = p.sendRaced := by
  unfold Panel.setReset; split <;> rfl

/-! ### `Panel.acknowledge` and `Panel.endHold` -/

@[simp] theorem Panel.acknowledge_life (p : Panel) (t : Transaction) (ok : Bool) : (p.acknowledge t ok).life = p.life := by
  unfold Panel.acknowledge; split <;> simp
@[simp] theorem Panel.acknowledge_cfgVariant (p : Panel) (t : Transaction) (ok : Bool) : (p.acknowledge t ok).cfgVariant = p.cfgVariant := by
  unfold Panel.acknowledge; split <;> simp
@[simp] theorem Panel.acknowledge_cfgRst (p : Panel) (t : Transaction) (ok : Bool) : (p.acknowledge t ok).cfgRst = p.cfgRst := by
  unfold Panel.acknowledge; split <;> simp
@[simp] theorem Panel.acknowledge_cfgTable (p : Panel) (t : Transaction) (ok : Bool) : (p.acknowledge t ok).cfgTable = p.cfgTable := by
  unfold Panel.acknowledge; split <;> simp
@[simp] theorem Panel.acknowledge_bpp (p : Panel) (t : Transaction) (ok : Bool) : (p.acknowledge t ok).bpp = p.bpp := by
  unfold Panel.acknowledge; split <;> simp
@[simp] theorem Panel.acknowledge_orient (p : Panel) (t : Transaction) (ok : Bool) : (p.acknowledge t ok).orient = p.orient := by
  unfold Panel.acknowledge; split <;> simp
@[simp] theorem Panel.acknowledge_colmodSh (p : Panel) (t : Transaction) (ok : Bool) : (p.acknowledge t ok).colmodSh = p.colmodSh := by
  unfold Panel.acknowledge; split <;> simp
@[simp] theorem Panel.acknowledge_xGap (p : Panel) (t : Transaction) (ok : Bool) : (p.acknowledge t ok).xGap = p.xGap := by
  unfold Panel.acknowledge; split <;> simp
@[simp] theorem Panel.acknowledge_yGap (p : Panel) (t : Transaction) (ok : Bool) : (p.acknowledge t ok).yGap = p.yGap := by
  unfold Panel.acknowledge; split <;> simp
@[simp] theorem Panel.acknowledge_faults (p : Panel) (t : Transaction) (ok : Bool) : (p.acknowledge t ok).faults = p.faults := by
  unfold Panel.acknowledge; split <;> simp
@[simp] theorem Panel.acknowledge_ovr (p : Panel) (t : Transaction) (ok : Bool) : (p.acknowledge t ok).ovr = p.ovr := by
  unfold Panel.acknowledge; split <;> simp
@[simp] theorem Panel.acknowledge_diag (p : Panel) (t : Transaction) (ok : Bool) : (p.acknowledge t ok).diag = p.diag := by
  unfold Panel.acknowledge; split <;> simp
@[simp] theorem Panel.acknowledge_lineHeld (p : Panel) (t : Transaction) (ok : Bool) : (p.acknowledge t ok).lineHeld = p.lineHeld := by
  unfold Panel.acknowledge; split <;> simp
@[simp] theorem Panel.acknowledge_pin (p : Panel) (t : Transaction) (ok : Bool) : (p.acknowledge t ok).pin = p.pin := by
  unfold Panel.acknowledge; split <;> simp
@[simp] theorem Panel.acknowledge_sendRaced (p : Panel) (t : Transaction) (ok : Bool) : (p.acknowledge t ok).sendRaced = p.sendRaced := by
  unfold Panel.acknowledge; split <;> simp
@[simp] theorem Panel.acknowledge_resetDone (p : Panel) (t : Transaction) (ok : Bool) :
    (p.acknowledge t ok).resetDone = p.resetDone := by
  unfold Panel.acknowledge; split <;> simp
@[simp] theorem Panel.endHold_life (p : Panel) (ms : Nat) : (p.endHold ms).life = p.life := by
  simp [Panel.endHold]
@[simp] theorem Panel.endHold_cfgVariant (p : Panel) (ms : Nat) : (p.endHold ms).cfgVariant = p.cfgVariant := by
  simp [Panel.endHold]
@[simp] theorem Panel.endHold_cfgRst (p : Panel) (ms : Nat) : (p.endHold ms).cfgRst = p.cfgRst := by
  simp [Panel.endHold]
@[simp] theorem Panel.endHold_cfgTable (p : Panel) (ms : Nat) : (p.endHold ms).cfgTable = p.cfgTable := by
  simp [Panel.endHold]
@[simp] theorem Panel.endHold_bpp (p : Panel) (ms : Nat) : (p.endHold ms).bpp = p.bpp := by
  simp [Panel.endHold]
@[simp] theorem Panel.endHold_orient (p : Panel) (ms : Nat) : (p.endHold ms).orient = p.orient := by
  simp [Panel.endHold]
@[simp] theorem Panel.endHold_colmodSh (p : Panel) (ms : Nat) : (p.endHold ms).colmodSh = p.colmodSh := by
  simp [Panel.endHold]
@[simp] theorem Panel.endHold_xGap (p : Panel) (ms : Nat) : (p.endHold ms).xGap = p.xGap := by
  simp [Panel.endHold]
@[simp] theorem Panel.endHold_yGap (p : Panel) (ms : Nat) : (p.endHold ms).yGap = p.yGap := by
  simp [Panel.endHold]
@[simp] theorem Panel.endHold_faults (p : Panel) (ms : Nat) : (p.endHold ms).faults = p.faults := by
  simp [Panel.endHold]
@[simp] theorem Panel.endHold_ovr (p : Panel) (ms : Nat) : (p.endHold ms).ovr = p.ovr := by
  simp [Panel.endHold]
@[simp] theorem Panel.endHold_diag (p : Panel) (ms : Nat) : (p.endHold ms).diag = p.diag := by
  simp [Panel.endHold]
@[simp] theorem Panel.endHold_lineHeld (p : Panel) (ms : Nat) : (p.endHold ms).lineHeld = p.lineHeld := by
  simp [Panel.endHold]
@[simp] theorem Panel.endHold_pin (p : Panel) (ms : Nat) : (p.endHold ms).pin = p.pin := by
  simp [Panel.endHold]
@[simp] theorem Panel.endHold_sendRaced (p : Panel) (ms : Nat) : (p.endHold ms).sendRaced = p.sendRaced := by
  simp [Panel.endHold]

end Sys2Proof.Machine
end

