-- ==== Sys2Proof/Laws/PerInstr.lean ====
section
/-! SUPPORT. For every instruction: the word its record starts with carries the bits spec/opcode_table.json fixes for
its row. -/

namespace Sys2Proof.Laws.TableBits

/-- The first word of a record: the address word of a QuadAddressed transaction, else the first byte. -/
def firstWord (i : Instr) : Word :=
  match i.format, encode Config.Params.default i with
  | .quadWord, a :: b :: c :: d :: _ => a ++ b ++ c ++ d
  | _, a :: _ => a.setWidth 32
  | _, [] => 0

/-- The table's mask and match of a row. -/
def fixedBits : Instr → Word × Word
  | .create _ _ _ _ _ => (0xF, 0x0)   -- CREATE
  | .reset => (0xF, 0x1)   -- RESET
  | .init => (0xF, 0x2)   -- INIT
  | .draw _ _ _ _ _ => (0xF, 0x3)   -- DRAW
  | .mirror _ _ => (0xF, 0x4)   -- MIRROR
  | .swapXy _ => (0xF, 0x5)   -- SWAP_XY
  | .invertColor _ => (0xF, 0x6)   -- INVERT_COLOR
  | .displayOnOff _ => (0xF, 0x7)   -- DISPLAY_ON_OFF
  | .setGap _ _ => (0xF, 0x8)   -- SET_GAP
  | .destroy => (0xF, 0x9)   -- DESTROY
  | .reqInvalid _ => (0xE, 0xA)   -- REQ_INVALID
  | .reqInvalidHi _ => (0xC, 0xC)   -- REQ_INVALID_HI
  | .sendCommandQuad _ _ => (0xFF0000FF, 0x02000000)   -- SEND_COMMAND_QUAD
  | .sendPixelsQuad _ _ _ => (0xFF0000FF, 0x32000000)   -- SEND_PIXELS_QUAD
  | .qspiRead _ => (0xFF000000, 0x03000000)   -- QSPI_READ
  | .sendCommandPlain _ _ => (0x00, 0x00)   -- SEND_COMMAND_PLAIN
  | .sendPixelsPlain _ _ _ => (0x00, 0x00)   -- SEND_PIXELS_PLAIN
  | .swreset => (0xFF, 0x01)   -- SWRESET
  | .slpout => (0xFF, 0x11)   -- SLPOUT
  | .invoff => (0xFF, 0x20)   -- INVOFF
  | .invon => (0xFF, 0x21)   -- INVON
  | .dispoff => (0xFF, 0x28)   -- DISPOFF
  | .dispon => (0xFF, 0x29)   -- DISPON
  | .caset _ _ => (0xFF, 0x2A)   -- CASET
  | .raset _ _ => (0xFF, 0x2B)   -- RASET
  | .ramwr _ _ => (0xFF, 0x2C)   -- RAMWR
  | .madctl => (0xFF, 0x36)   -- MADCTL
  | .colmod => (0xFF, 0x3A)   -- COLMOD
  | .vendorRow _ _ => (0x00, 0x00)   -- VENDOR_ROW

def Statement (i : Instr) : Prop := firstWord i &&& (fixedBits i).1 = (fixedBits i).2

/-- A record that starts with the byte `b`. -/
theorem of_byte (i : Instr) (b : Byte) (bs : List Byte) (hf : i.format ≠ .quadWord)
    (he : encode Config.Params.default i = b :: bs) (h : b.setWidth 32 &&& (fixedBits i).1 = (fixedBits i).2) :
    Statement i := by
  unfold Statement firstWord
  rw [he]
  cases hi : i.format <;> first | exact absurd hi hf | exact h

/-- A record that starts with the word `w`, most significant byte first. -/
theorem of_word (i : Instr) (w : Word) (bs : List Byte) (hf : i.format = .quadWord)
    (he : encode Config.Params.default i = wordBytes w ++ bs) (h : w &&& (fixedBits i).1 = (fixedBits i).2) :
    Statement i := by
  unfold Statement firstWord
  rw [he, hf]
  exact (congrArg (· &&& (fixedBits i).1) (word_bytes w)).trans h

theorem mask_bits : ∀ j : Fin 32,
    (0xFF0000FF#32).getLsbD j = (decide (j.val < 8) || decide (24 ≤ j.val)) := by decide

theorem tag_bits : ∀ j : Fin 32, (0xFF000000#32).getLsbD j = decide (24 ≤ j.val) ∧
    (0x03000000#32).getLsbD j = (decide (24 ≤ j.val) && Config.qspiOpRead.getLsbD (j.val - 24)) := by decide

/-- The fixed bits of an address word with a given tag. -/
theorem quad_bits (tag op : Byte) : addressWord tag op &&& 0xFF0000FF#32 = tag.setWidth 32 <<< 24 := by
  apply BitVec.eq_of_getLsbD_eq
  intro i hi
  have hm := mask_bits ⟨i, hi⟩
  simp only at hm
  simp only [addressWord, BitVec.getLsbD_and, BitVec.getLsbD_or, BitVec.getLsbD_shiftLeft, BitVec.getLsbD_setWidth, hm]
  rcases Nat.lt_or_ge i 8 with h | h
  · simp [h, show i < 24 by omega]
  · rcases Nat.lt_or_ge i 24 with h2 | h2
    · simp [h2, show ¬ i < 8 by omega]
    · simp [h2, show ¬ i < 24 by omega, show ¬ i < 8 by omega, BitVec.getLsbD_of_ge op (i - 8) (by omega)]

/-- The tag bits of a read word. -/
theorem read_bits (low : BitVec 24) : (Config.qspiOpRead ++ low : BitVec 32) &&& 0xFF000000#32 = 0x03000000#32 := by
  apply BitVec.eq_of_getLsbD_eq
  intro i hi
  have hm := tag_bits ⟨i, hi⟩
  simp only at hm
  rw [BitVec.getLsbD_and, BitVec.getLsbD_append, hm.1, hm.2]
  rcases Nat.lt_or_ge i 24 with h | h
  · simp [show ¬ 24 ≤ i by omega]
  · simp [h, show ¬ i < 24 by omega]

theorem create (t : Option Variant) (l : Option ResetLine) (co bpp : Byte) (tab : Option (List InitRow)) :
    Statement (.create t l co bpp tab) :=
  of_byte _ 0x0 _ nofun rfl (by decide : (0x0 : Byte).setWidth 32 &&& (0xF : Word) = 0x0)
theorem reset : Statement (.reset) :=
  of_byte _ 0x1 _ nofun rfl rfl
theorem init : Statement (.init) :=
  of_byte _ 0x2 _ nofun rfl rfl
theorem draw (xs : Word) (ys : Word) (xe : Word) (ye : Word) (buf : Nat) : Statement (.draw xs ys xe ye buf) :=
  of_byte _ 0x3 _ nofun rfl (by decide : (0x3 : Byte).setWidth 32 &&& (0xF : Word) = 0x3)
theorem mirror (x : Bool) (y : Bool) : Statement (.mirror x y) :=
  of_byte _ 0x4 _ nofun rfl (by decide : (0x4 : Byte).setWidth 32 &&& (0xF : Word) = 0x4)
theorem swapXy (b : Bool) : Statement (.swapXy b) :=
  of_byte _ 0x5 _ nofun rfl (by decide : (0x5 : Byte).setWidth 32 &&& (0xF : Word) = 0x5)
theorem invertColor (on : Bool) : Statement (.invertColor on) :=
  of_byte _ 0x6 _ nofun rfl (by decide : (0x6 : Byte).setWidth 32 &&& (0xF : Word) = 0x6)
theorem displayOnOff (on : Bool) : Statement (.displayOnOff on) :=
  of_byte _ 0x7 _ nofun rfl (by decide : (0x7 : Byte).setWidth 32 &&& (0xF : Word) = 0x7)
theorem setGap (x : Word) (y : Word) : Statement (.setGap x y) :=
  of_byte _ 0x8 _ nofun rfl (by decide : (0x8 : Byte).setWidth 32 &&& (0xF : Word) = 0x8)
theorem destroy : Statement (.destroy) :=
  of_byte _ 0x9 _ nofun rfl rfl
theorem reqInvalid (low : BitVec 1) : Statement (.reqInvalid low) :=
  of_byte _ _ _ nofun rfl (by revert low; decide)
theorem reqInvalidHi (low : BitVec 2) : Statement (.reqInvalidHi low) :=
  of_byte _ _ _ nofun rfl (by revert low; decide)
theorem sendCommandQuad (op : Byte) (p : List Byte) : Statement (.sendCommandQuad op p) :=
  of_word _ _ _ rfl rfl (quad_bits 0x02 op)
theorem sendPixelsQuad (op : Byte) (buf : Nat) (n : Nat) : Statement (.sendPixelsQuad op buf n) :=
  of_word _ _ _ rfl rfl (quad_bits 0x32 op)
theorem qspiRead (low : BitVec 24) : Statement (.qspiRead low) :=
  of_word _ _ [] rfl rfl (read_bits low)
theorem sendCommandPlain (op : Byte) (p : List Byte) : Statement (.sendCommandPlain op p) :=
  of_byte _ op _ nofun rfl BitVec.and_zero
theorem sendPixelsPlain (op : Byte) (buf : Nat) (n : Nat) : Statement (.sendPixelsPlain op buf n) :=
  of_byte _ op _ nofun rfl BitVec.and_zero
theorem swreset : Statement (.swreset) :=
  of_byte _ 0x01 _ nofun rfl rfl
theorem slpout : Statement (.slpout) :=
  of_byte _ 0x11 _ nofun rfl rfl
theorem invoff : Statement (.invoff) :=
  of_byte _ 0x20 _ nofun rfl rfl
theorem invon : Statement (.invon) :=
  of_byte _ 0x21 _ nofun rfl rfl
theorem dispoff : Statement (.dispoff) :=
  of_byte _ 0x28 _ nofun rfl rfl
theorem dispon : Statement (.dispon) :=
  of_byte _ 0x29 _ nofun rfl rfl
theorem caset (xs : Half) (xe : Half) : Statement (.caset xs xe) :=
  of_byte _ 0x2A _ nofun rfl (by decide : (0x2A : Byte).setWidth 32 &&& (0xFF : Word) = 0x2A)
theorem raset (ys : Half) (ye : Half) : Statement (.raset ys ye) :=
  of_byte _ 0x2B _ nofun rfl (by decide : (0x2B : Byte).setWidth 32 &&& (0xFF : Word) = 0x2B)
theorem ramwr (buf : Nat) (n : Nat) : Statement (.ramwr buf n) :=
  of_byte _ 0x2C _ nofun rfl (by decide : (0x2C : Byte).setWidth 32 &&& (0xFF : Word) = 0x2C)
theorem madctl : Statement (.madctl) :=
  of_byte _ 0x36 _ nofun rfl rfl
theorem colmod : Statement (.colmod) :=
  of_byte _ 0x3A _ nofun rfl rfl
theorem vendorRow (op : Byte) (p : List Byte) : Statement (.vendorRow op p) :=
  of_byte _ op _ nofun rfl BitVec.and_zero

end Sys2Proof.Laws.TableBits
end

