-- ==== Sys2Proof/Laws/Step.lean ====
section
/-! SUPPORT. What a step does, said once. -/

namespace Sys2Proof.Machine

theorem step_unlisted (s : State) (hi : s.inputs = []) (hp : s.panel.pending = []) : step s = s.foreground := by
  simp [step, State.advance, State.schedule, hi, hp]

theorem step_input (s : State) (m : Input) (rest : List Input) (h : s.inputs = m :: rest) :
    step s = State.deliver { s with inputs := rest } m := by
  simp [step, State.advance, h]

theorem step_turn (s : State) (rest : List Input) (h : s.inputs = .turn :: rest) :
    step s = State.foreground { s with inputs := rest } := step_input s .turn rest h

theorem State.foreground_row (s : State) (i : Instr) (h : s.panel.nextRow = some i) : s.foreground = exec i s := by
  simp [State.foreground, h]

theorem State.foreground_awaiting (s : State) (t : Transaction) (h : s.panel.bus = .awaiting t) :
    s.foreground = .next (s.answer t) := by
  simp [State.foreground, Panel.nextRow, h]

theorem State.foreground_hold (s : State) (ms : Nat) (hb : s.panel.bus = .free) (h : s.panel.hold = some ms) :
    s.foreground = .next (s.onPanel (·.endHold ms)) := by
  simp [State.foreground, Panel.nextRow, h, hb]

theorem State.foreground_action (s : State) (hb : s.panel.bus = .free) (hh : s.panel.hold = none)
    (h : s.panel.commandRow = none) : s.foreground = s.fsmAction := by
  simp [State.foreground, Panel.nextRow, h, hb, hh]

/-- Every way the foreground can move. -/
theorem State.foreground_cases {s t : State} (h : s.foreground = .next t) :
    (∃ i, s.panel.nextRow = some i ∧ exec i s = .next t) ∨
    (∃ x, s.panel.bus = .awaiting x ∧ t = s.answer x) ∨
    (∃ ms, s.panel.bus = .free ∧ s.panel.hold = some ms ∧ t = s.onPanel (·.endHold ms)) ∨
    (s.panel.bus = .free ∧ s.panel.hold = none ∧ s.panel.commandRow = none ∧ s.fsmAction = .next t) := by
  cases hb : s.panel.bus with
  | submitted x =>
    have hn : s.panel.nextRow = some (transportRow s.panel.cfgVariant x) := by simp [Panel.nextRow, hb]
    rw [s.foreground_row _ hn] at h
    exact .inl ⟨_, hn, h⟩
  | awaiting x =>
    rw [s.foreground_awaiting x hb] at h
    cases h
    exact .inr (.inl ⟨x, rfl, rfl⟩)
  | free =>
    cases hh : s.panel.hold with
    | some ms =>
      rw [s.foreground_hold ms hb hh] at h
      cases h
      exact .inr (.inr (.inl ⟨ms, rfl, rfl, rfl⟩))
    | none =>
      cases hc : s.panel.commandRow with
      | some i =>
        have hn : s.panel.nextRow = some i := by simp [Panel.nextRow, hb, hh, hc]
        rw [s.foreground_row i hn] at h
        exact .inl ⟨i, hn, h⟩
      | none =>
        rw [s.foreground_action hb hh hc] at h
        exact .inr (.inr (.inr ⟨rfl, rfl, rfl, h⟩))

/-- Every way a step can move: the foreground, a completion, or a move of the environment; the first two after the
schedule has taken its move or its free value. -/
theorem step_cases {s t : State} (h : step s = .next t) :
    (∃ rest n, State.foreground { s with inputs := rest, draws := n } = .next t) ∨
    (∃ rest n, State.complete { s with inputs := rest, draws := n } = .next t) ∨
    (∃ record rest, s.inputs = .request record :: rest ∧ State.present { s with inputs := rest } record = .next t) ∨
    (∃ a b rest, s.inputs = .write a b :: rest ∧ t = State.hostWrite { s with inputs := rest } a b) ∨
    (∃ k rest, s.inputs = .select k :: rest ∧ t = State.select { s with inputs := rest } k) ∨
    (∃ rest, s.inputs = .freshPanel :: rest ∧ t = State.setAside { s with inputs := rest }) := by
  cases hi : s.inputs with
  | nil =>
    have hs : s.schedule = .next t := by simpa [step, State.advance, hi] using h
    have e : { s with inputs := [] } = s := by cases s; simp_all
    unfold State.schedule at hs
    split at hs
    · exact .inl ⟨[], s.draws, by rw [show ({ s with inputs := [], draws := s.draws } : State) = s from e]; exact hs⟩
    · split at hs
      · split at hs
        · exact .inr (.inl ⟨s.inputs, s.draws + 1, hs⟩)
        · exact .inl ⟨s.inputs, s.draws + 1, hs⟩
      · exact .inr (.inl ⟨s.inputs, s.draws, hs⟩)
  | cons m rest =>
    rw [step_input s m rest hi] at h
    cases m with
    | turn => exact .inl ⟨rest, s.draws, h⟩
    | complete => exact .inr (.inl ⟨rest, s.draws, h⟩)
    | request r => exact .inr (.inr (.inl ⟨r, rest, rfl, h⟩))
    | write a b => cases h; exact .inr (.inr (.inr (.inl ⟨a, b, rest, rfl, rfl⟩)))
    | select k => cases h; exact .inr (.inr (.inr (.inr (.inl ⟨k, rest, rfl, rfl⟩))))
    | freshPanel => cases h; exact .inr (.inr (.inr (.inr (.inr ⟨rest, rfl, rfl⟩))))

/-- A row the FSM emits writes the transaction under way and the history, and nothing else of the object. -/
theorem emitted_row_keeps {α : Type} (g : Panel → α)
    (hg : ∀ (p : Panel) b h, g { p with bus := b, hist := h } = g p) {s t : State} {i : Instr}
    (hn : s.panel.nextRow = some i) (h : exec i s = .next t) : g t.panel = g s.panel := by
  have hb : ∀ (p : Panel) b, g { p with bus := b } = g p := fun p b => hg p b p.hist
  cases i with
  | create | reset | init | draw | mirror | swapXy | invertColor | displayOnOff | setGap | destroy | reqInvalid
  | reqInvalidHi | qspiRead =>
    exfalso
    revert hn
    unfold Panel.nextRow
    split
    · intro hn; revert hn; cases s.panel.cfgVariant <;> rename_i x _ <;> cases x <;> simp [transportRow]
    · simp
    · split
      · simp
      · unfold Panel.commandRow; split <;> simp
        try (rename_i c _; cases c <;> simp [BinaryCmd.row])
  | sendCommandQuad | sendPixelsQuad | sendCommandPlain | sendPixelsPlain =>
    simp only [exec, execSendCommandQuad, execSendPixelsQuad, execSendCommandPlain, execSendPixelsPlain] at h
    obtain ⟨-, rfl⟩ := State.transmit_cases h
    exact hg _ _ _
  | swreset | slpout | invoff | invon | dispoff | dispon | caset | raset | ramwr | madctl | colmod | vendorRow =>
    simp only [exec, execSwreset, execSlpout, execInvoff, execInvon, execDispoff, execDispon,
      execCaset, execRaset, execRamwr, execMadctl, execColmod, execVendorRow] at h
    obtain ⟨-, rfl⟩ := State.submit_cases h
    exact hb _ _

/-- A run goes on from what its first step gives. -/
theorem core_run_next {s t : State} (k : Nat) (h : step s = .next t) : core.run (k + 1) s = core.run k t := by
  have hc : core.step s = .next t := h
  refine (Host.Core.run.eq_2 core s k).trans ?_
  rw [hc]

/-- A run of no steps stays. -/
theorem core_run_zero (s : State) : core.run 0 s = .next s := rfl

end Sys2Proof.Machine
end

