-- ==== Sys2Proof/Tests/Slice0.lean ====
section
/-! SUPPORT. Tests with results taken from spec/95_test_vectors.md or worked out by hand from the rule named, and a
witness for the hypotheses of every statement that has some. -/

namespace Sys2Proof.Tests

open Sys2Proof Sys2Proof.Machine Sys2Proof.Config

/-! ### Small states -/

/-- A live Plain RGB565 object with no reset line and an empty table. -/
def live : Panel := { Panel.absent with life := .live }

/-- One object, the next moves the foreground's, answers as listed. -/
def on (p : Panel) (answers : List Bool) : State :=
  { State.reset with panel := p, inputs := List.replicate 3 .turn, answers := answers }

/-- A live object in an FSM state. -/
def fsmAt (f : Fsm) : State := on { live with fsm := f } [true]

/-- A live object with a table, at one of its rows. -/
def rowAt (f : Fsm) (rows : List InitRow) : State := on { live with fsm := f, cfgTable := rows } [true]

def line : ResetLine := ⟨4, false⟩

/-- What a result's panel shows, where there is a next state. -/
def seen {α : Type} (f : Panel → α) : Result → Option α
  | .next t => some (f t.panel)
  | .fault _ => none
  | .refused _ => none

/-- The refusal of a result. -/
def refusal : Result → Option Refusal
  | .refused r => some r
  | .next _ | .fault _ => none

/-- A decoder's answer as an option. -/
def read (f : Format) (bs : List Byte) : Option Instr :=
  match decode Params.default f bs with
  | .ok i => some i
  | .error _ => none

/-! ### Well-formedness (R113): one ill-formed term for each row that carries a byte count -/

theorem test_wf_ramwr_too_long : (Instr.ramwr 0 4294967296).wf = false := by decide
theorem test_wf_quad_pixels_too_long : (Instr.sendPixelsQuad 0x2C 0 4294967296).wf = false := by decide
theorem test_wf_plain_pixels_too_long : (Instr.sendPixelsPlain 0x2C 0 4294967296).wf = false := by decide
theorem test_wf_ramwr_longest : (Instr.ramwr 0 4294967295).wf = true := by decide

/-! ### Decoding: words written out from R80 to R93; the operands' bytes are log 9's -/

/-- op 0x0; transport 1 = Plain, no line, colour order 1 = BGR, 16 bits, no table. -/
theorem test_decode_create : read .req [0b00000000, 1, 0, 1, 16, 0] =
    some (.create (some .plain) none 1 16 none) := by decide
/-- With a line and a table of one row. -/
theorem test_decode_create_line : read .req [0b00000000, 2, 1, 4, 0, 0, 18, 1, 1, 0xB0, 1, 0x01, 20] =
    some (.create (some .quadAddressed) (some line) 0 18 (some [⟨0xB0, [0x01], 20⟩])) := by decide
theorem test_decode_reset : read .req [0b00000001] = some .reset := by decide
theorem test_decode_init : read .req [0b00000010] = some .init := by decide
/-- x_start = -5 (two's complement, R81). -/
theorem test_decode_draw : read .req [0b00000011, 0xFB, 0xFF, 0xFF, 0xFF, 0, 0, 0, 0, 5, 0, 0, 0, 1, 0, 0, 0, 0x80, 1] =
    some (.draw (-5) 0 5 1 128) := by decide
theorem test_decode_mirror : read .req [0b00000100, 0, 1] = some (.mirror false true) := by decide
theorem test_decode_swap_xy : read .req [0b00000101, 1] = some (.swapXy true) := by decide
theorem test_decode_invert_color : read .req [0b00000110, 0] = some (.invertColor false) := by decide
theorem test_decode_display_on_off : read .req [0b00000111, 1] = some (.displayOnOff true) := by decide
theorem test_decode_set_gap : read .req [0b00001000, 0, 0, 0, 0, 20, 0, 0, 0] = some (.setGap 0 20) := by decide
theorem test_decode_destroy : read .req [0b00001001] = some .destroy := by decide
theorem test_decode_req_invalid : read .req [0b00001010] = some (.reqInvalid 0) := by decide
theorem test_decode_req_invalid_hi : read .req [0b00001111] = some (.reqInvalidHi 3) := by decide
/-- The words of E5 on the wire. -/
theorem test_decode_send_command_quad : read .quadWord [0b00000010, 0, 0b00110110, 0, 0x40] =
    some (.sendCommandQuad 0x36 [0x40]) := by decide
theorem test_decode_send_pixels_quad : read .quadWord [0b00110010, 0, 0b00101100, 0, 0, 4] =
    some (.sendPixelsQuad 0x2C 0 4) := by decide
/-- R89's example 0x03003600. -/
theorem test_decode_qspi_read : read .quadWord [0b00000011, 0, 0b00110110, 0] = some (.qspiRead 0x003600) := by decide
theorem test_decode_send_command_plain : read .plainCmd [0b00110110, 0x40] = some (.sendCommandPlain 0x36 [0x40]) := by
  decide
theorem test_decode_send_pixels_plain : read .plainPix [0b00101100, 0, 2] = some (.sendPixelsPlain 0x2C 0 2) := by decide
theorem test_decode_swreset : read .busCmd [0b00000001] = some .swreset := by decide
theorem test_decode_slpout : read .busCmd [0b00010001] = some .slpout := by decide
theorem test_decode_invoff : read .busCmd [0b00100000] = some .invoff := by decide
theorem test_decode_invon : read .busCmd [0b00100001] = some .invon := by decide
theorem test_decode_dispoff : read .busCmd [0b00101000] = some .dispoff := by decide
theorem test_decode_dispon : read .busCmd [0b00101001] = some .dispon := by decide
theorem test_decode_caset : read .busCmd [0b00101010, 0x00, 0x0A, 0x01, 0x3F] = some (.caset 10 319) := by decide
theorem test_decode_raset : read .busCmd [0b00101011, 0x00, 0x14, 0x01, 0x2B] = some (.raset 20 299) := by decide
theorem test_decode_ramwr : read .busCmd [0b00101100, 0, 0x82, 0x01] = some (.ramwr 0 130) := by decide
theorem test_decode_madctl : read .busCmd [0b00110110] = some .madctl := by decide
theorem test_decode_colmod : read .busCmd [0b00111010] = some .colmod := by decide
theorem test_decode_vendor_row : read .tableRow [0b10110000, 0x01] = some (.vendorRow 0xB0 [0x01]) := by decide

/-- R80: only four bits spell an op. -/
theorem test_decode_reserved_bits : read .req [0x11] = none := by decide
/-- R89: a non-zero byte in bits 7:0. -/
theorem test_decode_not_emitted : read .quadWord [0x02, 0x00, 0x36, 0x01] = none := by decide
/-- R113: a byte count of 2^32. -/
theorem test_decode_count_too_long : read .busCmd [0x2C, 0, 0x80, 0x80, 0x80, 0x80, 0x10] = none := by decide
theorem test_table_word_quad : decodeTableWord 32 0x02003600 = some (.sendCommandQuad 0x36 []) := by decide
theorem test_table_word_request : decodeTableWord 8 0x08 = some (.setGap 0 0) := by decide
theorem test_table_word_command : decodeTableWord 8 0x2A = some (.caset 0 0) := by decide

/-! ### The wire (95 section 2.1) -/

/-- V-T1. -/
theorem test_wire_plain_command :
    (frame .plain (.cmd 0x36 [0x40])).wire [] = [.command 0x36, .param 0x40] := by decide
/-- V-T6. -/
theorem test_wire_quad_command : (frame .quadAddressed (.cmd 0x2A [0x00, 0x00, 0x00, 0xEF])).wire [] =
    [.address 0x02, .address 0x00, .address 0x2A, .address 0x00, .param 0x00, .param 0x00, .param 0x00, .param 0xEF] := by
  decide
/-- V-T8. -/
theorem test_wire_quad_pixels : (frame .quadAddressed (.pix 0x2C 0 4)).wire [0xAA, 0xBB, 0xCC, 0xDD] =
    [.address 0x32, .address 0x00, .address 0x2C, .address 0x00, .data 0xAA, .data 0xBB, .data 0xCC, .data 0xDD] := by
  decide
/-- V-T9. -/
theorem test_wire_plain_pixels : (frame .plain (.pix 0x2C 0 2)).wire [0xF8, 0x00] =
    [.command 0x2C, .data 0xF8, .data 0x00] := by decide
/-- V-H4: the pixel bytes reach the bus before a MADCTL issued while they were pending. -/
theorem test_wire_bus_order :
    busStream [.bus (.plainPix 0x2C 8 2), .ack true, .status .ok, .bus (.plainCmd 0x36 [0x40]), .ack true,
      .pixels 8 [0xF8, 0x00]] =
    [.command 0x2C, .data 0xF8, .data 0x00, .command 0x36, .param 0x40] := by decide

/-! ### Statuses (R230) -/

theorem test_status_codes : [Status.ok, .invalidArgument, .outOfMemory, .unsupportedConfig, .transportError 0x36,
    .contractViolation, .resetLineError, .initTableError 0x3A].map (fun st => (st.code, st.info)) =
    [(0, none), (1, none), (2, none), (3, none), (4, some 0x36), (5, none), (6, none), (7, some 0x3A)] := by decide

/-! ### Steps -/

/-- V-C2. -/
theorem test_create_bgr : seen (fun p => (p.orient, p.colmodSh, p.bpp, p.hist))
    (exec (.create (some .plain) none 1 16 (some [])) (on Panel.absent [true])) =
    some (0x08, 0x55, .b16, [.status .ok]) := by decide
/-- V-C9. -/
theorem test_create_unsupported_releases : seen (fun p => (p.life, p.lineHeld, p.hist))
    (exec (.create (some .plain) (some line) 2 16 none) (on Panel.absent [true, true])) =
    some (.absent, none, [.claim 4 true, .release 4, .status .unsupportedConfig]) := by decide
/-- R30, R133: reset takes RST_ASSERT, which is a step of its own; V-R2: an active-low line. -/
theorem test_reset_drives_the_line :
    seen (fun p => (p.fsm, p.hist)) (exec .reset (on { live with cfgRst := some line } [])) = some (.rstAssert, []) ∧
    seen (fun p => (p.pin, p.hist)) (step (on { live with cfgRst := some line, pin := true, fsm := .rstAssert } [])) =
      some (false, [.setReset true false]) := by decide
/-- V-R5: no Wait after a failed SWRESET. -/
theorem test_reset_transport_error : seen (fun p => (p.resetDone, p.hist))
    (step (on { live with fsm := .rstSwreset, bus := .awaiting (.cmd 0x01 []) } [false])) =
    some (false, [.ack false, .status (.transportError 0x01)]) := by decide
/-- V-I11: init before reset. -/
theorem test_init_before_reset : seen (fun p => (p.fsm, p.faults.callerError)) (exec .init (fsmAt .idle)) =
    some (.initSlpout, true) := by decide
/-- V-I6: only the first byte of an override is shadowed. -/
theorem test_init_override : seen (fun p => (p.orient, p.diag, p.fsm))
    (step (rowAt .initRowCheck [⟨0x36, [0x40, 0x99], 0⟩])) = some (0x40, [0x36], .initRowSend) := by decide
/-- V-D9: the top of the coordinate range. -/
theorem test_draw_top_of_range : seen (fun p => p.fsm) (step (fsmAt (.drawCheck ⟨65535, 0, 65536, 1, 7⟩))) =
    some (.drawCaset ⟨0xFFFF, 0xFFFF, 0, 0, 7, 2⟩) := by decide
/-- V-D20: a byte count of 2^32 or more. -/
theorem test_draw_too_long : seen (fun p => (p.faults.contract, p.hist))
    (step (on { live with bpp := .b24, fsm := .drawCheck ⟨0, 0, 65536, 21846, 7⟩ } [])) =
    some (true, [.status .contractViolation]) := by decide
/-- V-O10. -/
theorem test_mirror_keeps_other_bits : seen (fun p => (p.orient, p.fsm))
    (step (on { live with orient := 0xFF, fsm := .oriUpdate (.mirror false false) } [])) = some (0x3F, .oriSend) := by
  decide
/-- V-O6. -/
theorem test_mirror_y : seen (fun p => p.orient)
    (step (on { live with orient := 0x08, fsm := .oriUpdate (.mirror false true) } [])) = some 0x88 := by decide
/-- V-O11. -/
theorem test_swap_xy_clears_mv : seen (fun p => p.orient)
    (step (on { live with orient := 0x3F, fsm := .oriUpdate (.swap false) } [])) = some 0x1F := by decide
/-- V-O7. -/
theorem test_swap_xy_sets_mv : seen (fun p => p.orient)
    (step (on { live with orient := 0x88, fsm := .oriUpdate (.swap true) } [])) = some 0xA8 := by decide
/-- V-B2. -/
theorem test_invert_color_off : seen (fun p => p.nextRow) (exec (.invertColor false) (fsmAt .idle)) =
    some (some .invoff) := by decide
/-- V-B3. -/
theorem test_display_on : seen (fun p => p.nextRow) (exec (.displayOnOff true) (fsmAt .idle)) =
    some (some .dispon) := by decide
/-- V-G2. -/
theorem test_set_gap_extremes : seen (fun p => (p.xGap.toInt, p.yGap.toInt))
    (exec (.setGap 0x80000000 0x7FFFFFFF) (fsmAt .idle)) = some (-2147483648, 2147483647) := by decide
/-- V-X2. -/
theorem test_destroy_releases : seen (fun p => (p.life, p.hist))
    (exec .destroy (on { live with cfgRst := some line, lineHeld := some 4 } [])) =
    some (.destroyed, [.release 4, .status .ok]) := by decide
/-- V-E2: op 0xB. -/
theorem test_req_invalid : refusal (exec (.reqInvalid 1) (fsmAt .idle)) = some (.spellsNoOperation 0xB) := by decide
theorem test_req_invalid_hi : refusal (exec (.reqInvalidHi 2) (fsmAt .idle)) = some (.spellsNoOperation 0xE) := by
  decide
/-- V-E3: no object. -/
theorem test_request_without_object : refusal (exec (.mirror true false) State.reset) = some .noObject := by decide
/-- V-T5. -/
theorem test_send_command_quad : seen (fun p => p.hist) (exec (.sendCommandQuad 0x3A [0x55])
    (on { live with cfgVariant := .quadAddressed, fsm := .initPushColmod, bus := .submitted (.cmd 0x3A [0x55]) } [])) =
    some [.bus (.quadCmd 0x02003A00 [0x55])] := by decide
/-- V-T8. -/
theorem test_send_pixels_quad : seen (fun p => p.hist) (exec (.sendPixelsQuad 0x2C 7 4)
    (on { live with cfgVariant := .quadAddressed, bus := .submitted (.pix 0x2C 7 4) } [])) =
    some [.bus (.quadPix 0x32002C00 7 4)] := by decide
theorem test_send_command_plain : seen (fun p => p.hist) (exec (.sendCommandPlain 0x36 [0x40])
    (on { live with bus := .submitted (.cmd 0x36 [0x40]) } [])) = some [.bus (.plainCmd 0x36 [0x40])] := by decide
theorem test_send_pixels_plain : seen (fun p => p.hist) (exec (.sendPixelsPlain 0x2C 7 2)
    (on { live with bus := .submitted (.pix 0x2C 7 2) } [])) = some [.bus (.plainPix 0x2C 7 2)] := by decide
/-- R3: a transaction row the FSM does not emit has no issuer. -/
theorem test_row_not_emitted : refusal (exec .swreset (fsmAt .idle)) = some .notEmittedHere := by decide
/-- V-D2's row payload. -/
theorem test_raset_payload : seen (fun p => p.bus) (exec (.raset 20 299) (fsmAt (.drawRaset ⟨0, 239, 20, 299, 7, 134400⟩))) =
    some (.submitted (.cmd 0x2B [0x00, 0x14, 0x01, 0x2B])) := by decide
/-- V-D1's column payload. -/
theorem test_caset_payload : seen (fun p => p.bus) (exec (.caset 0 239) (fsmAt (.drawCaset ⟨0, 239, 0, 319, 7, 153600⟩))) =
    some (.submitted (.cmd 0x2A [0x00, 0x00, 0x00, 0xEF])) := by decide
/-- V-I13: the shadow as it stands. -/
theorem test_madctl_payload : seen (fun p => p.bus)
    (exec .madctl (on { live with fsm := .initPushMadctl, orient := 0x40 } [])) =
    some (.submitted (.cmd 0x36 [0x40])) := by decide
/-- V-I6: both bytes of an override row are sent. -/
theorem test_vendor_row_payload : seen (fun p => p.bus)
    (exec (.vendorRow 0x36 [0x40, 0x99]) (rowAt .initRowSend [⟨0x36, [0x40, 0x99], 0⟩])) =
    some (.submitted (.cmd 0x36 [0x40, 0x99])) := by decide
/-- V-E1: a request during init. -/
theorem test_concurrent_call : seen (fun p => (p.fsm, p.faults.concurrentCall)) (exec (.draw 0 0 1 1 0) (fsmAt .initSlpwait)) =
    some (.initSlpwait, true) := by decide
/-- V-E4. -/
theorem test_use_after_destroy : seen (fun p => (p.faults.useAfterDestroy, p.hist))
    (exec .reset (on { live with life := .destroyed } [])) = some (true, []) := by decide
/-- V-H1. -/
theorem test_buffer_race : seen (fun p => p.faults.bufferRace)
    (step { State.reset with panel := { live with pending := [⟨16, 2, false⟩] }, inputs := [.write 17 0] }) =
    some true := by decide
/-- The byte after the buffer is no part of it. -/
theorem test_no_buffer_race : seen (fun p => p.faults.bufferRace)
    (step { State.reset with panel := { live with pending := [⟨16, 2, false⟩] }, inputs := [.write 18 0] }) =
    some false := by decide
/-- R76, the draw row: a write into the buffer of a draw whose pixels have not gone yet. -/
theorem test_draw_buffer_race : seen (fun p => (p.faults.bufferRace, p.sendRaced))
    (step { fsmAt (.drawCaset ⟨0, 0, 0, 0, 16, 2⟩) with inputs := [.write 17 0] }) = some (true, false) := by decide
/-- While its pixel transaction waits for BUS_ACK the transfer itself is marked (log 12). -/
theorem test_sending_buffer_race : seen (fun p => (p.faults.bufferRace, p.sendRaced))
    (step { on { live with fsm := .drawRamwr ⟨0, 0, 0, 0, 16, 2⟩, bus := .awaiting (.pix 0x2C 16 2) } [] with
      inputs := [.write 16 0] }) = some (true, true) := by decide
/-- R115: with the foreground idle and a transfer pending, the Transport completes it. -/
theorem test_completion : seen (fun p => (p.pending, p.hist))
    (step { State.reset with panel := { live with pending := [⟨16, 2, false⟩] }, mem := [(16, 0xF8), (17, 0x00)] }) =
    some ([], [.pixels 16 [0xF8, 0x00]]) := by decide
/-- Log 11: the word's instruction is the first to run. -/
theorem test_fetch_word_request : seen (fun p => p.fsm) (step (State.reset.withFetchWord 8 0x02)) = some .initSlpout := by
  decide
theorem test_fetch_word_transaction : seen (fun p => p.hist) (step (State.reset.withFetchWord 32 0x02001100)) =
    some [.bus (.quadCmd 0x02001100 [])] := by decide
/-- R260: the state before the first request. -/
theorem test_reset_state : State.reset.panel.life = .absent ∧ Memory.wf State.reset.mem = true ∧
    seen (fun p => p.life) (step State.reset) = some .absent := by decide

/-! ### Witnesses: a concrete case for the hypotheses of each statement -/

theorem witness_EveryInstructionDecodesAsEncoded :
    Params.default.distinct ∧ (Instr.ramwr 0 4294967295).wf = true := by decide
theorem witness_DecodedInstructionsAreWellFormed :
    decode Params.default .busCmd [0x2C, 0, 0xFF, 0xFF, 0xFF, 0xFF, 0x0F] = .ok (.ramwr 0 4294967295) := by rfl
/-- One word for each way of R89: bits 23:16, bits 7:0, the prefix. -/
theorem witness_WordsNotEmittedAreRefused :
    let bad := fun a : Word => a.extractLsb' 24 8 ≠ 0x03#8 ∧ (a.extractLsb' 16 8 ≠ 0#8 ∨ a.extractLsb' 0 8 ≠ 0#8 ∨
      (a.extractLsb' 24 8 ≠ 0x02#8 ∧ a.extractLsb' 24 8 ≠ 0x32#8))
    bad 0x02010000 ∧ bad 0x32002C01 ∧ bad 0x33002C00 := by decide
theorem witness_BusOrderIsIssueOrder :
    [BusTxn.quadPix 0x32002C00 0 2].countP (·.isPixels) = [[(0xF8 : Byte), 0x00]].length ∧
    (let s := fsmAt .oriSend
     s.turns 3 [] ∧ s.panel.bus = .free ∧ s.panel.hold = none ∧
     s.panel.transaction s.params = some (.cmd 0x36 [0x00]) ∧ tooLong s.params (.cmd 0x36 [0x00]) = false ∧
     unanswered false s.panel.hist = false ∧ s.answers = true :: []) ∧
    (let s := on { live with
       fsm := .drawRamwr ⟨0, 0, 0, 0, 0, 2⟩
       hist := [.bus (.plainCmd 0x2A []), .ack true, .waitStart 1, .waitEnd 1] } [true]
     s.turns 3 [] ∧ s.panel.transaction s.params = some (.pix 0x2C 0 2) ∧
     tooLong s.params (.pix 0x2C 0 2) = false ∧ unanswered false s.panel.hist = false) := by decide
theorem witness_StepRunsThePresentedRequest :
    decode Params.default .req [0x01] = .ok .reset ∧
    ({ State.reset with inputs := [.request [0x01]] }).inputs = .request [0x01] :: [] ∧
    (let s := { fsmAt .idle with reqs := [[0x01]] }
     s.inputs = .turn :: [.turn, .turn] ∧ s.panel.fsm = .idle ∧ s.panel.bus = .free ∧ s.panel.hold = none ∧
       s.reqs = [0x01] :: []) := by
  refine ⟨rfl, ?_⟩
  decide
theorem witness_StepRunsTheRowTheFsmEmits :
    (fsmAt .initSlpout).inputs = .turn :: [.turn, .turn] ∧ (fsmAt .initSlpout).panel.nextRow = some .slpout ∧
    (let s := { fsmAt .initSlpout with inputs := [] }
     s.inputs = [] ∧ s.panel.pending = [] ∧ s.panel.nextRow = some .slpout) := by decide
theorem witness_UnlistedStepIsATurnOrACompletion :
    (State.reset.inputs = [] ∧ State.reset.panel.pending = []) ∧
    (let s := { State.reset with panel := { live with pending := [⟨0, 1, false⟩] } }
     s.inputs = [] ∧ s.panel.fsm = .idle ∧ s.panel.bus = .free ∧ s.panel.hold = none ∧ s.reqs = [] ∧
       s.panel.pending ≠ []) := by decide
theorem witness_EmittedRowsComplete : (fsmAt (.cmdSend .dispOn)).panel.nextRow = some .dispon := by decide
theorem witness_RequestDuringAnOperationOnlySetsConcurrentCall :
    needsObject .destroy = true ∧ (fsmAt .initSlpwait).panel.fsm ≠ .idle := by decide
theorem witness_RequestAfterDestroyOnlySetsUseAfterDestroy :
    let s := on { live with life := .destroyed } []
    needsObject .reset = true ∧ s.panel.fsm = .idle ∧ s.panel.life = .destroyed ∧ s.params.distinct := by decide
theorem witness_RequestsThatAreRefused :
    (needsObject .reset = true ∧ State.reset.panel.fsm = .idle ∧ State.reset.panel.life = .absent) ∧
    ¬ { Params.default with cmdColmod := 0x36 }.distinct := by decide
theorem witness_CreateLeavesTheValuesOfR42 :
    (let s := on Panel.absent [true]
     s.params.distinct ∧ s.panel.life = .absent ∧ s.answers = true :: []) ∧
    (let s := on Panel.absent [true, true, false]
     s.params.distinct ∧ s.panel.life = .absent ∧ s.answers = true :: true :: false :: []) := by decide
/-- One case for each error, the last two with arguments one off the supported ones. -/
theorem witness_CreateReportsTheFirstError :
    (on Panel.absent []).params.distinct ∧ (on Panel.absent []).panel.life = .absent ∧
    (on Panel.absent [false]).answers = false :: [] ∧ (on Panel.absent [true, false]).answers = true :: false :: [] ∧
    (on Panel.absent [true, true]).answers = true :: true :: [] ∧ (on Panel.absent [true]).answers = true :: [] ∧
    ¬ (((2 : Byte) = 0 ∨ (2 : Byte) = 1) ∧ ((16 : Byte) = 16 ∨ (16 : Byte) = 18)) ∧
    ¬ (((1 : Byte) = 0 ∨ (1 : Byte) = 1) ∧ ((17 : Byte) = 16 ∨ (17 : Byte) = 18)) := by decide
theorem witness_FailedCreateLeavesNoTrace :
    let s := on Panel.absent [true, true]
    s.panel.life = .absent ∧ s.panel.lineHeld = none ∧
    seen (fun p => p.life) (exec (.create (some .plain) (some line) 0 17 none) s) = some .absent := by decide
theorem witness_CreateNeverActsOnALiveObject :
    (fsmAt .initSlpwait).params.distinct ∧ (fsmAt .initSlpwait).panel.life = .live := by decide
theorem witness_HardwareResetPath :
    let s := { on { live with cfgRst := some line, lineHeld := some 4 } [] with inputs := List.replicate 6 .turn }
    s.ready ∧ s.panel.cfgRst = some line ∧ s.turns 6 [] := by decide
theorem witness_SoftwareResetPath :
    (let s := { fsmAt .idle with inputs := List.replicate 5 .turn }
     s.ready ∧ s.panel.cfgRst = none ∧ s.answers = true :: [] ∧ s.turns 5 []) ∧
    (let s := on live [false]
     s.ready ∧ s.panel.cfgRst = none ∧ s.answers = false :: [] ∧ s.turns 3 []) := by decide
theorem witness_DestroyReleasesTheLine :
    ((fsmAt .idle).ready ∧ (fsmAt .idle).panel.cfgRst = none) ∧
    (let s := on { live with cfgRst := some line } []
     s.ready ∧ s.panel.cfgRst = some line) := by decide
theorem witness_InitEntry : (fsmAt .idle).panel.life = .live ∧ (fsmAt .idle).panel.fsm = .idle := by decide
theorem witness_InitEndsAfterTheLastRow :
    let s := rowAt .initRowCheck []
    s.turns 1 [.turn, .turn] ∧ s.panel.fsm = .initRowCheck ∧ s.panel.bus = .free ∧ s.panel.hold = none ∧
    s.panel.row = s.panel.cfgTable.length := by decide
/-- One row for each clause: not managed; managed and empty; MADCTL; COLMOD. -/
theorem witness_OverrideDetection :
    let fits := fun r : InitRow =>
      let s := rowAt .initRowCheck [r]
      s.turns 1 [.turn, .turn] ∧ s.panel.fsm = .initRowCheck ∧ s.panel.bus = .free ∧ s.panel.hold = none ∧
      s.panel.cfgTable[s.panel.row]? = some r
    let par := Params.default
    (fits ⟨0x37, [], 0⟩ ∧ (0x37 : Byte) ≠ par.cmdMadctl ∧ (0x37 : Byte) ≠ par.cmdColmod) ∧
    (fits ⟨0x3A, [], 0⟩ ∧ ((0x3A : Byte) = par.cmdMadctl ∨ (0x3A : Byte) = par.cmdColmod)) ∧
    (fits ⟨0x36, [0x40], 0⟩ ∧ (0x36 : Byte) = par.cmdMadctl) ∧
    (fits ⟨0x3A, [0x66], 0⟩ ∧ (0x3A : Byte) ≠ par.cmdMadctl ∧ (0x3A : Byte) = par.cmdColmod) := by decide
theorem witness_RowDelay :
    let fits := fun r : InitRow =>
      let s := rowAt .initRowWait [r]
      s.panel.fsm = .initRowWait ∧ s.panel.bus = .free ∧ s.panel.hold = none ∧
      s.panel.cfgTable[s.panel.row]? = some r ∧ s.turns 1 [.turn, .turn] ∧ s.turns 2 [.turn]
    fits ⟨0xB0, [], 0⟩ ∧ fits ⟨0xB0, [], 1⟩ ∧
    (let s := fsmAt .initSlpwait
     s.panel.fsm = .initSlpwait ∧ s.panel.bus = .free ∧ s.panel.hold = none ∧ s.turns 2 [.turn]) := by decide
/-- No limit on a payload by default (R8). -/
theorem payload_unlimited (n : Nat) : payloadFits Params.default n := nofun
/-- V-I8's kind of table: a vendor row and an override. -/
theorem witness_SuccessfulInitWalksTheWholeTable :
    let s : State := { on { live with cfgTable := [⟨0xB0, [0x01], 0⟩, ⟨0x36, [0x40, 0x99], 5⟩] } (List.replicate 5 true)
      with inputs := List.replicate 23 .turn }
    s.ready ∧ s.params.distinct ∧ s.turns (initSteps s.panel.cfgTable) [] ∧
    (∀ r ∈ s.panel.cfgTable, (managed s.params r.opcode = true → r.payload ≠ []) ∧
      payloadFits s.params r.payload.length) ∧
    payloadFits s.params 1 ∧ s.answers = List.replicate (3 + s.panel.cfgTable.length) true ++ [] := by
  refine ⟨by decide, by decide, by decide, ?_, nofun, by decide⟩
  intro r hr
  exact ⟨by revert r; decide, nofun⟩
theorem witness_CommandsWithEmptyPayload :
    let is := fun f : Fsm => (fsmAt f).panel.bus = .free ∧ (fsmAt f).panel.hold = none ∧ (fsmAt f).panel.fsm = f
    is .rstSwreset ∧ is .initSlpout ∧ is (.cmdSend .invOff) ∧ is (.cmdSend .invOn) ∧ is (.cmdSend .dispOff) ∧
    is (.cmdSend .dispOn) := by decide
theorem witness_WindowCommands :
    let is := fun f : Fsm => (fsmAt f).panel.bus = .free ∧ (fsmAt f).panel.hold = none ∧ (fsmAt f).panel.fsm = f
    let w : Window := ⟨0, 0xFFFF, 0, 0x7FFE, 0, 4294836224⟩
    is (.drawCaset w) ∧ is (.drawRaset w) ∧ is (.drawRamwr w) := by decide
theorem witness_RegisterCommandsAndRows :
    let is := fun f : Fsm => (fsmAt f).panel.bus = .free ∧ (fsmAt f).panel.hold = none ∧ (fsmAt f).panel.fsm = f
    is .initPushMadctl ∧ is .oriSend ∧ is .initPushColmod ∧
    (let s := rowAt .initRowSend [⟨0xB0, [0x01], 0⟩]
     s.panel.bus = .free ∧ s.panel.hold = none ∧ s.panel.fsm = .initRowSend ∧
     s.panel.cfgTable[s.panel.row]? = some ⟨0xB0, [0x01], 0⟩) := by decide
theorem witness_TransportRowsFrameTheTransaction :
    let is := fun (v : Variant) (t : Transaction) =>
      let s := on { live with cfgVariant := v, bus := .submitted t } []
      s.panel.cfgVariant = v ∧ s.panel.bus = .submitted t
    is .plain (.cmd 0x01 []) ∧ is .plain (.pix 0x2C 0 1) ∧ is .quadAddressed (.cmd 0xFF []) ∧
    is .quadAddressed (.pix 0x2C 0 0) := by decide
theorem witness_SendingStatesSendTheirTransaction :
    let s := fsmAt .oriSend
    s.turns 2 [.turn] ∧ s.panel.bus = .free ∧ s.panel.hold = none ∧
    s.panel.transaction s.params = some (.cmd 0x36 [0x00]) := by decide
theorem witness_TransportErrorEndsTheOperation :
    let s := on { live with fsm := .oriSend, bus := .awaiting (.cmd 0x36 [0x40]) } [false]
    s.turns 1 [.turn, .turn] ∧ s.panel.bus = .awaiting (.cmd 0x36 [0x40]) ∧
    tooLong s.params (.cmd 0x36 [0x40]) = false ∧ s.answers = false :: [] := by decide
/-- V-T14, one byte over the limit. -/
theorem witness_PayloadOverTheLimitFails :
    let s : State := { on { live with fsm := .oriSend, bus := .awaiting (.cmd 0x36 [0x40]) } [true] with
      params := { Params.default with maxPayload := some 0 } }
    s.turns 1 [.turn, .turn] ∧ s.panel.bus = .awaiting (.cmd 0x36 [0x40]) ∧ s.params.maxPayload = some 0 ∧
    0 < [(0x40 : Byte)].length := by decide
theorem witness_AcceptedPixelsArePending :
    let w : Window := ⟨0, 0, 0, 0, 0, 2⟩
    let s := on { live with fsm := .drawRamwr w, bus := .awaiting (.pix 0x2C 0 2) } [true]
    s.inputs = .turn :: [.turn, .turn] ∧ s.panel.bus = .awaiting (.pix 0x2C 0 2) ∧ s.panel.fsm = .drawRamwr w ∧
    s.answers = true :: [] := by decide
/-- A buffer that is there, one whose last byte is not, and a raced one that is not there at all. -/
theorem witness_CompletionDeliversTheOldestTransfer :
    let s : State := { State.reset with
      panel := { live with pending := [⟨16, 2, false⟩] }, mem := [(16, 0xF8), (17, 0x00)], inputs := [.complete] }
    s.inputs = .complete :: [] ∧ s.panel.pending = ⟨16, 2, false⟩ :: [] ∧
    Memory.readMany s.mem 16 2 = some [0xF8, 0x00] ∧ Memory.readMany [(16, 0xF8)] 16 2 = none ∧
    (let r : State := { s with panel := { live with pending := [⟨16, 2, true⟩, ⟨32, 1, false⟩] }, mem := [] }
     r.inputs = .complete :: [] ∧ r.panel.pending = ⟨16, 2, true⟩ :: [⟨32, 1, false⟩]) := by decide
theorem witness_PixelBytesAreTheBufferInOrder :
    Memory.readMany [(16, 0xF8), (17, 0x00)] 16 2 = some [0xF8, 0x00] ∧ Memory.readMany [(16, 0xF8)] 16 2 = none := by
  decide
theorem witness_HostWriteIntoAPendingBufferIsARace :
    ({ State.reset with inputs := [.write 17 0] }).inputs = .write 17 0 :: [] ∧
    (fsmAt (.drawCaset ⟨0, 0, 0, 0, 16, 2⟩)).panel.fsm = .drawCaset ⟨0, 0, 0, 0, 16, 2⟩ ∧
    windowOf live.bpp live.xGap live.yGap ⟨0, 0, 1, 1, 16⟩ = some ⟨0, 0, 0, 0, 16, 2⟩ := by decide
theorem witness_OnlyTheHostWritesItsMemory :
    (∀ a b moves, State.reset.inputs ≠ .write a b :: moves) ∧ step State.reset = .next State.reset :=
  ⟨fun _ _ _ => nofun, rfl⟩
/-- V-D9, V-D11 and V-D17: the ends of the coordinate range and the longest transfer. -/
theorem witness_DrawComputesTheWindow :
    let fits := fun (p : Panel) (x0 y0 x1 y1 : Word) => (on p []).ready ∧ (on p []).turns 1 [.turn, .turn] ∧
      x0.toInt < x1.toInt ∧ y0.toInt < y1.toInt ∧
      0 ≤ x0.toInt + p.xGap.toInt ∧ x1.toInt + p.xGap.toInt - 1 ≤ 0xFFFF ∧
      0 ≤ y0.toInt + p.yGap.toInt ∧ y1.toInt + p.yGap.toInt - 1 ≤ 0xFFFF ∧
      (x1.toInt - x0.toInt) * (y1.toInt - y0.toInt) * p.bpp.bits < 8 * 2 ^ 32
    fits live 65535 0 65536 1 ∧ fits { live with xGap := 65535 } 0 0 1 1 ∧ fits { live with xGap := 10 } (-5) 0 5 1 ∧
    fits live 0 0 65536 32767 ∧ fits { live with bpp := .b24 } 0 0 65536 21845 := by decide
/-- V-D14, V-D10, V-D13 and V-D18: each check, one off. -/
theorem witness_DrawContractViolation :
    (fsmAt .idle).ready ∧ (fsmAt .idle).turns 1 [.turn, .turn] ∧ needsObject .init = true ∧
    ¬ ((10 : Word).toInt < (10 : Word).toInt ∧ (0 : Word).toInt < (5 : Word).toInt) ∧
    ¬ (0 ≤ (0 : Word).toInt + live.xGap.toInt ∧ (65537 : Word).toInt + live.xGap.toInt - 1 ≤ 0xFFFF ∧
      0 ≤ (0 : Word).toInt + live.yGap.toInt ∧ (1 : Word).toInt + live.yGap.toInt - 1 ≤ 0xFFFF) ∧
    ¬ (0 ≤ (-1 : Word).toInt + live.xGap.toInt ∧ (1 : Word).toInt + live.xGap.toInt - 1 ≤ 0xFFFF ∧
      0 ≤ (0 : Word).toInt + live.yGap.toInt ∧ (1 : Word).toInt + live.yGap.toInt - 1 ≤ 0xFFFF) ∧
    8 * 2 ^ 32 ≤ ((65536 : Word).toInt - (0 : Word).toInt) * ((32768 : Word).toInt - (0 : Word).toInt) * live.bpp.bits := by
  decide
theorem witness_DrawEmitsThreeTransactions :
    let w : Window := ⟨0, 239, 0, 319, 7, 153600⟩
    let s : State := { on { live with fsm := .drawCaset w } [true, true, true] with inputs := List.replicate 9 .turn }
    s.turns 9 [] ∧ s.panel.fsm = .drawCaset w ∧ s.panel.bus = .free ∧ s.panel.hold = none ∧
    s.answers = true :: true :: true :: [] ∧ payloadFits s.params 4 :=
  ⟨by decide, by decide, by decide, by decide, by decide, nofun⟩
theorem witness_DrawIgnoresTheShadowRegisters :
    seen (fun p => p.fsm) (exec (.draw 0 0 1 1 7) (fsmAt .idle)) = some (.drawCheck ⟨0, 0, 1, 1, 7⟩) ∧
    (let s := fsmAt (.drawCheck ⟨0, 0, 1, 1, 7⟩)
     let t := on { live with orient := 0xFF, colmodSh := 0x66, fsm := .drawCheck ⟨0, 0, 1, 1, 7⟩ } []
     s.inputs = .turn :: [.turn, .turn] ∧ t.inputs = .turn :: [.turn, .turn] ∧
     s.panel.fsm = .drawCheck ⟨0, 0, 1, 1, 7⟩ ∧ t.panel.fsm = .drawCheck ⟨0, 0, 1, 1, 7⟩ ∧
     s.panel.bus = .free ∧ t.panel.bus = .free ∧ s.panel.hold = none ∧ t.panel.hold = none ∧
     s.panel.xGap = t.panel.xGap ∧ s.panel.yGap = t.panel.yGap ∧ s.panel.bpp = t.panel.bpp ∧
     seen (fun p => p.fsm) (step s) = some (.drawCaset ⟨0, 0, 0, 0, 7, 2⟩)) := by decide
theorem witness_SetGapWritesTheGaps : (fsmAt .idle).ready := by decide
theorem witness_MirrorDrivesMxAndMy :
    let s : State := { fsmAt .idle with inputs := List.replicate 4 .turn }
    s.ready ∧ s.params.bitMx ≠ s.params.bitMy ∧ (0 : Fin 8) ≠ s.params.bitMx ∧ (0 : Fin 8) ≠ s.params.bitMy ∧
    s.turns 1 (List.replicate 3 .turn) ∧ s.answers = true :: [] ∧ payloadFits s.params 1 ∧ s.turns 4 [] :=
  ⟨by decide, by decide, by decide, by decide, by decide, by decide, nofun, by decide⟩
theorem witness_SwapXyDrivesMv :
    let s : State := { fsmAt .idle with inputs := List.replicate 4 .turn }
    s.ready ∧ (7 : Fin 8) ≠ s.params.bitMv ∧ s.turns 1 (List.replicate 3 .turn) ∧ s.answers = true :: [] ∧
    payloadFits s.params 1 ∧ s.turns 4 [] :=
  ⟨by decide, by decide, by decide, by decide, nofun, by decide⟩
theorem witness_MirrorAndSwapCommute :
    Params.default.bitMx ≠ Params.default.bitMv ∧ Params.default.bitMy ≠ Params.default.bitMv := by decide
/-- V-O13, for both instructions. -/
theorem witness_OrientationKeepsItsValueOnError :
    let s : State := { on live [false] with inputs := List.replicate 4 .turn }
    s.ready ∧ s.turns 4 [] ∧ orientMirror s.params s.panel.orient true false = 0x40 ∧
    orientSwap s.params s.panel.orient true = 0x20 ∧ payloadFits s.params 1 ∧ s.answers = false :: [] :=
  ⟨by decide, by decide, by decide, by decide, nofun, by decide⟩
theorem witness_BinaryCommandsKeepNoState :
    (fsmAt .idle).ready ∧ (fsmAt .idle).answers = true :: [] ∧ (fsmAt .idle).turns 3 [] := by decide
/-- A live object about to send SLPOUT meets the invariant, and its step goes on. -/
theorem witness_StepKeepsTheInvariant : (fsmAt .initSlpout).Inv ∧
    seen (fun p => p.bus) (step (fsmAt .initSlpout)) = some (.submitted (.cmd 0x11 [])) :=
  ⟨⟨rfl, ⟨fun h => absurd rfl h, fun h => (by cases h), rfl, trivial, .inl rfl, trivial, rfl, fun _ h => (by cases h)⟩,
    fun _ h => (by cases h)⟩, by decide⟩
/-- So does one with a window at the top of the range. -/
theorem witness_NoStepFaults : (fsmAt (.drawCaset ⟨0, 0xFFFF, 0, 0, 0, 131072⟩)).Inv :=
  ⟨rfl, ⟨fun h => absurd rfl h, fun h => (by cases h), rfl, trivial, .inl rfl, by simp [Panel.fsmFits, fsmAt, on, lenBits],
    rfl, fun _ h => (by cases h)⟩, fun _ h => (by cases h)⟩
theorem witness_ObjectsKeepConfigurationHistoryAndFaults :
    (fsmAt .initSlpout).panel.life ≠ .absent ∧
    seen (fun p => p.bus) (step (fsmAt .initSlpout)) = some (.submitted (.cmd 0x11 [])) ∧
    ({ fsmAt .idle with others := [live, live] }).others[1]? = some live ∧
    (live.faults.has .contract = false ∧ ({ live with faults := ⟨true, false, false, false, false, false⟩ } : Panel).faults.has
      .contract = true) := by decide
/-- ORIENT changes by a create, by an override row, by a mirror and by a swap. -/
theorem witness_OnlyTheOrientationMuxWritesOrient :
    seen (fun p => p.orient) (exec (.create (some .plain) none 1 16 (some [])) (on Panel.absent [true])) = some 0x08 ∧
    (let s := rowAt .initRowCheck [⟨0x36, [0x48], 0⟩]
     s.inputs = .turn :: [.turn, .turn] ∧ s.reqs = [] ∧ s.panel.orient = 0x00 ∧
     seen (fun p => p.orient) (step s) = some 0x48) ∧
    (let s := fsmAt (.oriUpdate (.mirror true false))
     s.inputs = .turn :: [.turn, .turn] ∧ s.reqs = [] ∧ s.panel.orient = 0x00 ∧
     seen (fun p => p.orient) (step s) = some 0x40) ∧
    seen (fun p => p.orient) (step (fsmAt (.oriUpdate (.swap true)))) = some 0x20 := by decide
theorem witness_OnlyCreateAndSetGapWriteBppAndGaps :
    seen (fun p => (p.xGap, p.yGap)) (exec (.setGap 0 20) (fsmAt .idle)) = some (0, 20) ∧
    seen (fun p => p.bpp) (exec (.create (some .plain) none 0 18 (some [])) (on Panel.absent [true])) = some .b24 ∧
    (fsmAt .initSlpwait).inputs = .turn :: [.turn, .turn] ∧ (fsmAt .initSlpwait).reqs = [] ∧
    seen (fun p => p.bpp) (step (fsmAt .initSlpwait)) = some .b16 := by decide
theorem witness_OnlyCreateAndOverridesWriteColmodSh :
    seen (fun p => p.colmodSh) (exec (.create (some .plain) none 0 18 (some [])) (on Panel.absent [true])) = some 0x66 ∧
    (let s := rowAt .initRowCheck [⟨0x3A, [0x66], 0⟩]
     s.inputs = .turn :: [.turn, .turn] ∧ s.reqs = [] ∧ seen (fun p => p.colmodSh) (step s) = some 0x66) := by decide
theorem witness_OnlyACompletedResetSetsResetDone :
    (let s := on { live with fsm := .rstSwhold, hold := some 20 } []
     s.inputs = .turn :: [.turn, .turn] ∧ s.reqs = [] ∧ seen (fun p => p.resetDone) (step s) = some true ∧
     s.panel.resetDone = false) ∧
    seen (fun p => p.resetDone)
      (exec (.create (some .plain) none 0 16 (some [])) (on { Panel.absent with resetDone := true } [true])) =
      some false := by decide
theorem witness_OtherObjectsAreUntouched :
    let s := fsmAt .initSlpout
    (∀ a b moves, s.inputs ≠ .write a b :: moves) ∧ (∀ k moves, s.inputs ≠ .select k :: moves) ∧
    seen (fun p => p.fsm) (step s) = some .initSlpout :=
  ⟨fun _ _ _ => nofun, fun _ _ => nofun, by decide⟩

end Sys2Proof.Tests
end

section
/-! The rest of the machine beside the addressed object: which part of it a move leaves alone (R247, R8; logs 13, 6). -/

namespace Sys2Proof.Machine

/-- From `s` to `t` every object set aside stays in its place as it was, and the parameters and host memory are kept. -/
structure State.RestKept (s t : State) : Prop where
  others : s.others <+: t.others
  params : t.params = s.params
  mem    : t.mem = s.mem

namespace State.RestKept

/-- A change of the answers, the requests, the moves or the addressed panel keeps the rest. -/
theorem of_eq {s t : State} (ho : t.others = s.others) (hp : t.params = s.params) (hm : t.mem = s.mem) :
    s.RestKept t := ⟨ho ▸ List.prefix_rfl, hp, hm⟩

theorem trans {s t u : State} (h : s.RestKept t) (k : t.RestKept u) : s.RestKept u :=
  ⟨h.others.trans k.others, k.params.trans h.params, k.mem.trans h.mem⟩

theorem onPanel (s : State) (f : Panel → Panel) : s.RestKept (s.onPanel f) := of_eq rfl rfl rfl

theorem setAside (s : State) : s.RestKept s.setAside := ⟨List.prefix_append _ _, rfl, rfl⟩

/-! ### The shared operations -/

theorem of_accept {s t : State} {start : Panel → Panel} (h : s.accept start = .next t) : s.RestKept t := by
  obtain ⟨-, -, rfl⟩ | ⟨-, -, rfl⟩ | ⟨-, rfl⟩ := State.accept_cases h <;> exact onPanel s _

theorem of_submit {s u : State} {i : Instr} {t : Transaction} (h : s.submit i t = .next u) : s.RestKept u := by
  obtain ⟨-, rfl⟩ := State.submit_cases h
  exact onPanel s _

theorem of_transmit {s u : State} {i : Instr} {t : Transaction} {f : BusTxn} (h : s.transmit i t f = .next u) :
    s.RestKept u := by
  obtain ⟨-, rfl⟩ := State.transmit_cases h
  exact onPanel s _

theorem answer (s : State) (t : Transaction) : s.RestKept (s.answer t) := of_eq (by simp) (by simp) (by simp)

theorem of_complete {s t : State} (h : s.complete = .next t) : s.RestKept t := by
  obtain ⟨-, rfl⟩ | ⟨e, rest, bytes, n, -, -, rfl⟩ := State.complete_cases h <;> exact of_eq rfl rfl rfl

theorem createHere (s : State) (v : Option Variant) (l : Option ResetLine) (co bpp : Byte)
    (tab : Option (List InitRow)) : s.RestKept (s.createHere v l co bpp tab) := by
  obtain ⟨ho, hm, hp, -, -⟩ := s.createHere_rest v l co bpp tab
  exact of_eq ho hp hm

/-- A create adds the live object it sets aside behind the others, and changes none of them (R238). -/
theorem of_execCreate {s t : State} {v : Option Variant} {l : Option ResetLine} {co bpp : Byte}
    {tab : Option (List InitRow)} (h : execCreate v l co bpp tab s = .next t) : s.RestKept t := by
  unfold execCreate at h
  split at h
  · split at h <;> cases h
    · exact createHere s v l co bpp tab
    · exact (setAside s).trans (createHere _ v l co bpp tab)
    · exact onPanel s _
  · cases h

/-! ### Executing a row, and the moves built on it -/

theorem of_exec {s t : State} {i : Instr} (h : exec i s = .next t) : s.RestKept t := by
  cases i with
  | create => exact of_execCreate h
  | reset | init | draw | mirror | swapXy | invertColor | displayOnOff | setGap | destroy => exact of_accept h
  | reqInvalid | reqInvalidHi | qspiRead => cases h
  | sendCommandQuad | sendPixelsQuad | sendCommandPlain | sendPixelsPlain => exact of_transmit h
  | swreset | slpout | invoff | invon | dispoff | dispon | caset | raset | ramwr | madctl | colmod | vendorRow =>
    exact of_submit h

theorem of_present {s t : State} {record : List Byte} (h : s.present record = .next t) : s.RestKept t := by
  unfold State.present at h
  split at h
  · exact of_exec h
  · cases h

theorem of_fetchRequest {s t : State} (h : s.fetchRequest = .next t) : s.RestKept t := by
  unfold State.fetchRequest at h
  revert h
  cases s.reqs with
  | nil => rintro ⟨⟩; exact of_eq rfl rfl rfl
  | cons record rest =>
    have taken : s.RestKept { s with reqs := rest } := of_eq rfl rfl rfl
    exact fun h => taken.trans (of_present h)

theorem of_fsmAction {s t : State} (h : s.fsmAction = .next t) : s.RestKept t := by
  unfold State.fsmAction at h
  revert h
  cases s.panel.fsm with
  | idle => exact of_fetchRequest
  | rstAssert | rstHold1 | rstDeassert | rstHold2 | rstSwhold | initSlpwait | drawCheck | oriUpdate =>
    rintro ⟨⟩; exact onPanel s _
  | initRowCheck | initRowWait =>
    dsimp only
    split <;> rintro ⟨⟩
    exact of_eq rfl rfl rfl
  | rstSwreset | initSlpout | initPushMadctl | initPushColmod | initRowSend | drawCaset | drawRaset | drawRamwr | oriSend
  | cmdSend => nofun

theorem of_foreground {s t : State} (h : s.foreground = .next t) : s.RestKept t := by
  obtain ⟨i, -, he⟩ | ⟨x, -, rfl⟩ | ⟨ms, -, -, rfl⟩ | ⟨-, -, -, ha⟩ := State.foreground_cases h
  · exact of_exec he
  · exact answer s x
  · exact onPanel s _
  · exact of_fsmAction ha

end State.RestKept

theorem State.select_params (s : State) (k : Nat) : (s.select k).params = s.params := by
  unfold State.select; split <;> rfl

/-- Every step keeps the rest of the machine, but for a host write and a turn to another object. -/
theorem step_restKept_or {s t : State} (h : step s = .next t) :
    s.RestKept t ∨
    (∃ a b rest, s.inputs = .write a b :: rest ∧ t = State.hostWrite { s with inputs := rest } a b) ∨
    (∃ k rest, s.inputs = .select k :: rest ∧ t = State.select { s with inputs := rest } k) := by
  have scheduled (rest : List Input) (n : Nat) : s.RestKept { s with inputs := rest, draws := n } :=
    .of_eq rfl rfl rfl
  obtain ⟨rest, n, hf⟩ | ⟨rest, n, hc⟩ | ⟨record, rest, -, hp⟩ | hw | hs | ⟨rest, -, rfl⟩ := step_cases h
  · exact .inl ((scheduled rest n).trans (.of_foreground hf))
  · exact .inl ((scheduled rest n).trans (.of_complete hc))
  · exact .inl ((scheduled rest s.draws).trans (.of_present hp))
  · exact .inr (.inl hw)
  · exact .inr (.inr hs)
  · exact .inl ((scheduled rest s.draws).trans (.setAside _))

/-- No step changes the parameters of R8 (log 6). -/
theorem step_params {s t : State} (h : step s = .next t) : t.params = s.params := by
  obtain hk | ⟨a, b, rest, -, rfl⟩ | ⟨k, rest, -, rfl⟩ := step_restKept_or h
  · exact hk.params
  · rfl
  · exact State.select_params _ k

/-- Settles O60: of every way a step can move, only a host write and a turn to another object reach the objects set
aside; every other one leaves them in place, and a create on a live object or a turn to a fresh panel adds one behind
them. -/
theorem otherObjectsAreUntouched : Obligations.OtherObjectsAreUntouched := by
  unfold Obligations.OtherObjectsAreUntouched
  refine ⟨fun s t hwrite hselect h => ?_, fun s t h => step_params h⟩
  obtain hk | ⟨a, b, rest, hi, -⟩ | ⟨k, rest, hi, -⟩ := step_restKept_or h
  · exact hk.others
  · exact absurd hi (hwrite a b rest)
  · exact absurd hi (hselect k rest)

end Sys2Proof.Machine
end

section
/-! Every move of the addressed object, said once: the requests, the rows the FSM emits, and the actions of the FSM, the
Transport and the Timer (R30, R93, R238). -/

namespace Sys2Proof.Machine

open Config (Params)

/-! ### Requests (R238) -/

/-- What a request other than create makes of a live object in IDLE. -/
def Panel.started (p : Panel) : Instr → Panel
  | .reset => { p with fsm := if p.cfgRst.isSome then .rstAssert else .rstSwreset }
  | .init => { p with
      faults := if p.resetDone then p.faults else p.faults.set .callerError
      ovr := Overrides.none
      fsm := .initSlpout }
  | .draw xs ys xe ye buf => { p with fsm := .drawCheck ⟨xs, ys, xe, ye, buf⟩, sendRaced := false }
  | .mirror x y => { p with fsm := .oriUpdate (.mirror x y) }
  | .swapXy b => { p with fsm := .oriUpdate (.swap b) }
  | .invertColor on => { p with fsm := .cmdSend (if on then .invOn else .invOff) }
  | .displayOnOff on => { p with fsm := .cmdSend (if on then .dispOn else .dispOff) }
  | .setGap x y => Panel.finish { p with xGap := x, yGap := y } .ok
  | .destroy => Panel.finish { p.releaseLine p.cfgRst with life := .destroyed } .ok
  | _ => p

theorem exec_request {i : Instr} (hi : needsObject i = true) (s : State) : exec i s = s.accept (·.started i) := by
  cases i with
  | reset | init | draw | mirror | swapXy | invertColor | displayOnOff | setGap | destroy => rfl
  | _ => cases hi

/-- A busy or a destroyed object answers a request with a fault alone. -/
def Panel.declines (p : Panel) : Prop := p.life = .destroyed ∨ p.fsm ≠ .idle

/-! ### Rows the FSM emits (R93) -/

/-- A command row hands the FSM state's transaction to the encoder; a transport row puts it on BUS. -/
inductive Panel.Emits (par : Params) (p : Panel) : Panel → Prop
  | submit (x : Transaction) : p.bus = .free → p.hold = none → p.transaction par = some x →
      Emits par p { p with bus := .submitted x }
  | transmit (x : Transaction) (f : BusTxn) : p.bus = .submitted x →
      Emits par p { p with bus := .awaiting x, hist := p.hist ++ [.bus f] }

theorem exec_commandRow {s : State} {i : Instr} (h : s.panel.commandRow = some i) :
    ∃ x, s.panel.transaction s.params = some x ∧ exec i s = s.submit i x := by
  unfold Panel.commandRow at h
  unfold Panel.transaction
  cases hf : s.panel.fsm with
  | rstSwreset | initSlpout | initPushMadctl | initPushColmod | drawCaset | drawRaset | drawRamwr | oriSend =>
    rw [hf] at h
    cases h
    exact ⟨_, rfl, rfl⟩
  | cmdSend c =>
    rw [hf] at h
    cases h
    cases c <;> exact ⟨_, rfl, rfl⟩
  | initRowSend =>
    rw [hf] at h
    obtain ⟨r, hr, rfl⟩ := Option.map_eq_some_iff.1 h
    exact ⟨_, by simp [hr], rfl⟩
  | _ => simp [hf] at h

theorem exec_transportRow (s : State) (v : Variant) (x : Transaction) :
    exec (transportRow v x) s = s.transmit (transportRow v x) x (frame v x) := by
  cases v <;> cases x <;> rfl

/-- Executing the row the FSM emits. -/
theorem exec_emitted {s t : State} {i : Instr} (hn : s.panel.nextRow = some i) (h : exec i s = .next t) :
    ∃ q, s.panel.Emits s.params q ∧ t = { s with panel := q } := by
  have hn' := hn
  unfold Panel.nextRow at hn'
  cases hb : s.panel.bus with
  | submitted x =>
    simp only [hb, Option.some.injEq] at hn'
    subst hn'
    rw [exec_transportRow, s.transmit_emitted _ _ _ hn] at h
    cases h
    exact ⟨_, .transmit x _ hb, rfl⟩
  | awaiting x => simp [hb] at hn'
  | free =>
    cases hh : s.panel.hold with
    | some ms => simp [hb, hh] at hn'
    | none =>
      obtain ⟨x, hx, he⟩ := exec_commandRow (by simpa [hb, hh] using hn')
      rw [he, s.submit_emitted _ _ hn] at h
      cases h
      exact ⟨_, .submit x hb hh hx, rfl⟩

/-- Every way an instruction can run: a create; a request that is declined or starts its operation; an emitted row. -/
theorem exec_cases {s t : State} {i : Instr} (h : exec i s = .next t) :
    (∃ a l c b d, i = .create a l c b d) ∨
    (∃ f, s.panel.declines ∧ t = { s with panel := s.panel.setFault f }) ∨
    (needsObject i = true ∧ s.panel.fsm = .idle ∧ s.panel.life = .live ∧ t = { s with panel := s.panel.started i }) ∨
    (∃ q, s.panel.Emits s.params q ∧ t = { s with panel := q }) := by
  have request (hi : needsObject i = true) := State.accept_cases ((exec_request hi s).symm.trans h)
  cases i with
  | create => exact .inl ⟨_, _, _, _, _, rfl⟩
  | reset | init | draw | mirror | swapXy | invertColor | displayOnOff | setGap | destroy =>
    obtain ⟨hf, hl, rfl⟩ | ⟨-, hl, rfl⟩ | ⟨hf, rfl⟩ := request rfl
    · exact .inr (.inr (.inl ⟨rfl, hf, hl, rfl⟩))
    · exact .inr (.inl ⟨.useAfterDestroy, .inl hl, rfl⟩)
    · exact .inr (.inl ⟨.concurrentCall, .inr hf, rfl⟩)
  | reqInvalid | reqInvalidHi | qspiRead => cases h
  | sendCommandQuad | sendPixelsQuad | sendCommandPlain | sendPixelsPlain =>
    exact .inr (.inr (.inr (exec_emitted (State.transmit_cases h).1 h)))
  | swreset | slpout | invoff | invon | dispoff | dispon | caset | raset | ramwr | madctl | colmod | vendorRow =>
    exact .inr (.inr (.inr (exec_emitted (State.submit_cases h).1 h)))

/-! ### Actions of the FSM, the Transport and the Timer (R30) -/

/-- What the foreground does to the addressed object beside emitting a row, and what a completion does. -/
inductive Panel.Acts (par : Params) (p : Panel) : Panel → Prop
  | acknowledge (x : Transaction) (ok : Bool) : p.bus = .awaiting x → Acts par p (p.acknowledge x ok)
  | endHold (ms : Nat) : p.bus = .free → p.hold = some ms → Acts par p (p.endHold ms)
  | startHold (ms : Nat) : p.bus = .free → p.hold = none → p.holdTime = some ms → Acts par p (p.startHold ms)
  | assertReset : p.bus = .free → p.hold = none → p.fsm = .rstAssert → Acts par p p.assertReset
  | deassertReset : p.bus = .free → p.hold = none → p.fsm = .rstDeassert → Acts par p p.deassertReset
  | endTable : p.bus = .free → p.hold = none → p.fsm = .initRowCheck → Acts par p (p.finish .ok)
  | tableDefect (op : Byte) : p.bus = .free → p.hold = none → p.fsm = .initRowCheck →
      Acts par p ((p.setFault .tableDefect).finish (.initTableError op))
  | sendRow : p.bus = .free → p.hold = none → p.fsm = .initRowCheck → p.row < p.cfgTable.length →
      Acts par p { p with fsm := .initRowSend }
  | overrideMadctl (r : InitRow) (v : Byte) (more : List Byte) (seen : Overrides) (ops : List Byte) :
      p.bus = .free → p.hold = none → p.fsm = .initRowCheck → p.cfgTable[p.row]? = some r →
      r.opcode = par.cmdMadctl → r.payload = v :: more →
      Acts par p { p with
        orient := v, ovr := seen, diag := p.diag ++ ops, hist := p.hist ++ ops.map .diag, fsm := .initRowSend }
  | overrideColmod (r : InitRow) (v : Byte) (more : List Byte) (seen : Overrides) (ops : List Byte) :
      p.bus = .free → p.hold = none → p.fsm = .initRowCheck → p.cfgTable[p.row]? = some r →
      r.opcode = par.cmdColmod → r.payload = v :: more →
      Acts par p { p with
        colmodSh := v, ovr := seen, diag := p.diag ++ ops, hist := p.hist ++ ops.map .diag, fsm := .initRowSend }
  | nextRow : p.bus = .free → p.hold = none → p.fsm = .initRowWait → p.row < p.cfgTable.length →
      Acts par p { p with row := p.row + 1, fsm := .initRowCheck }
  | rejectDraw (r : DrawArgs) : p.bus = .free → p.hold = none → p.fsm = .drawCheck r →
      Acts par p ((p.setFault .contract).finish .contractViolation)
  | openWindow (r : DrawArgs) (w : Window) : p.bus = .free → p.hold = none → p.fsm = .drawCheck r →
      windowOf p.bpp p.xGap p.yGap r = some w → Acts par p { p with fsm := .drawCaset w }
  | updateOrient (c : OrientCall) : p.bus = .free → p.hold = none → p.fsm = .oriUpdate c →
      Acts par p (Panel.updateOrient par p c)
  | deliver (e : Pending) (rest : List Pending) (bytes : List Byte) : p.pending = e :: rest →
      Acts par p { p with pending := rest, hist := p.hist ++ [.pixels e.buf bytes] }

/-- R165 on the row at ROW. -/
theorem Panel.Acts.of_checkRow {par : Params} {p : Panel} {r : InitRow} (hb : p.bus = .free) (hh : p.hold = none)
    (hf : p.fsm = .initRowCheck) (hr : p.cfgTable[p.row]? = some r) : p.Acts par (p.checkRow par r) := by
  have hlt : p.row < p.cfgTable.length := (List.getElem?_eq_some_iff.1 hr).1
  unfold Panel.checkRow
  split
  · rename_i hop
    split
    · exact .tableDefect _ hb hh hf
    · rename_i v more hp
      by_cases hm : r.opcode = par.cmdMadctl
      · rw [if_pos hm]
        unfold Panel.overrideMadctl
        split
        · simpa using Acts.overrideMadctl r v more p.ovr [] hb hh hf hr hm hp
        · exact .overrideMadctl r v more _ [r.opcode] hb hh hf hr hm hp
      · rw [if_neg hm]
        have hc := hop.resolve_left hm
        unfold Panel.overrideColmod
        split
        · simpa using Acts.overrideColmod r v more p.ovr [] hb hh hf hr hc hp
        · exact .overrideColmod r v more _ [r.opcode] hb hh hf hr hc hp
  · exact .sendRow hb hh hf hlt

theorem Panel.Acts.of_rowCheck {par : Params} {p q : Panel} (hb : p.bus = .free) (hh : p.hold = none)
    (hf : p.fsm = .initRowCheck) (h : p.rowCheck par = some q) : p.Acts par q := by
  unfold Panel.rowCheck at h
  split at h
  · cases h
    exact .endTable hb hh hf
  · obtain ⟨r, hr, rfl⟩ := Option.map_eq_some_iff.1 h
    exact .of_checkRow hb hh hf hr

theorem Panel.Acts.of_rowWait {par : Params} {p q : Panel} (hb : p.bus = .free) (hh : p.hold = none)
    (hf : p.fsm = .initRowWait) (h : p.rowWait = some q) : p.Acts par q := by
  obtain ⟨r, hr, rfl⟩ := Option.map_eq_some_iff.1 h
  split
  · exact .startHold _ hb hh (by simp [Panel.holdTime, hf, hr])
  · exact .nextRow hb hh hf (List.getElem?_eq_some_iff.1 hr).1

theorem Panel.Acts.of_checkDraw {par : Params} {p : Panel} {r : DrawArgs} (hb : p.bus = .free) (hh : p.hold = none)
    (hf : p.fsm = .drawCheck r) : p.Acts par (p.checkDraw r) := by
  unfold Panel.checkDraw
  split
  · exact .rejectDraw r hb hh hf
  · exact .openWindow r _ hb hh hf ‹_›

/-- The FSM's own action, where it fetches no request. -/
theorem State.fsmAction_acts {s t : State} (hb : s.panel.bus = .free) (hh : s.panel.hold = none)
    (hf : s.panel.fsm ≠ .idle) (h : s.fsmAction = .next t) :
    ∃ q, s.panel.Acts s.params q ∧ t = { s with panel := q } := by
  unfold State.fsmAction at h
  cases hs : s.panel.fsm with
  | idle => exact absurd hs hf
  | rstAssert => rw [hs] at h; cases h; exact ⟨_, .assertReset hb hh hs, rfl⟩
  | rstDeassert => rw [hs] at h; cases h; exact ⟨_, .deassertReset hb hh hs, rfl⟩
  | rstHold1 | rstHold2 | rstSwhold | initSlpwait =>
    rw [hs] at h
    cases h
    exact ⟨_, .startHold _ hb hh (by simp [Panel.holdTime, hs]), rfl⟩
  | drawCheck r => rw [hs] at h; cases h; exact ⟨_, .of_checkDraw hb hh hs, rfl⟩
  | oriUpdate c => rw [hs] at h; cases h; exact ⟨_, .updateOrient c hb hh hs, rfl⟩
  | initRowCheck =>
    simp only [hs] at h
    cases hq : s.panel.rowCheck s.params with
    | none => simp [hq] at h
    | some q => simp only [hq] at h; cases h; exact ⟨q, .of_rowCheck hb hh hs hq, rfl⟩
  | initRowWait =>
    simp only [hs] at h
    cases hq : s.panel.rowWait with
    | none => simp [hq] at h
    | some q => simp only [hq] at h; cases h; exact ⟨q, .of_rowWait hb hh hs hq, rfl⟩
  | rstSwreset | initSlpout | initPushMadctl | initPushColmod | initRowSend | drawCaset | drawRaset | drawRamwr | oriSend
  | cmdSend => rw [hs] at h; cases h

/-- A move of the addressed object that no request makes. -/
inductive Panel.Runs (par : Params) (p : Panel) : Panel → Prop
  | stays : Runs par p p
  | emits {q : Panel} : p.Emits par q → Runs par p q
  | acts {q : Panel} : p.Acts par q → Runs par p q

theorem State.complete_runs {s t : State} (h : s.complete = .next t) :
    s.panel.Runs s.params t.panel ∧ t.others = s.others := by
  obtain ⟨-, rfl⟩ | ⟨e, rest, bytes, n, hp, -, rfl⟩ := State.complete_cases h
  · exact ⟨.stays, rfl⟩
  · exact ⟨.acts (.deliver e rest bytes hp), rfl⟩

/-- The foreground runs the addressed object, or takes the next waiting request. -/
theorem State.foreground_runs {s t : State} (h : s.foreground = .next t) :
    (s.panel.Runs s.params t.panel ∧ t.others = s.others) ∨
    (∃ record rest, s.reqs = record :: rest ∧ State.present { s with reqs := rest } record = .next t) := by
  obtain ⟨i, hn, he⟩ | ⟨x, hb, rfl⟩ | ⟨ms, hb, hh, rfl⟩ | ⟨hb, hh, -, ha⟩ := State.foreground_cases h
  · obtain ⟨q, hq, rfl⟩ := exec_emitted hn he
    exact .inl ⟨.emits hq, rfl⟩
  · obtain ⟨ok, hok⟩ := s.answer_panel x
    exact .inl ⟨hok ▸ .acts (.acknowledge x ok hb), by simp⟩
  · exact .inl ⟨.acts (.endHold ms hb hh), rfl⟩
  · by_cases hf : s.panel.fsm = .idle
    · simp only [State.fsmAction, hf, State.fetchRequest] at ha
      cases hr : s.reqs with
      | nil => rw [hr] at ha; cases ha; exact .inl ⟨.stays, rfl⟩
      | cons record rest => rw [hr] at ha; exact .inr ⟨record, rest, rfl, ha⟩
    · obtain ⟨q, hq, rfl⟩ := State.fsmAction_acts hb hh hf ha
      exact .inl ⟨.acts hq, rfl⟩

/-- With no request waiting, a turn of the foreground or a completion runs the addressed object. -/
theorem step_runs {s t : State} {moves : List Input} (hi : s.inputs = .turn :: moves ∨ s.inputs = .complete :: moves)
    (hr : s.reqs = []) (h : step s = .next t) : s.panel.Runs s.params t.panel := by
  obtain hi | hi := hi
  · rw [step_turn s moves hi] at h
    obtain ⟨hq, -⟩ | ⟨record, rest, hreqs, -⟩ := State.foreground_runs h
    · exact hq
    · exact absurd (hr.symm.trans hreqs) (by simp)
  · rw [step_input s _ moves hi] at h
    exact (State.complete_runs h).1

end Sys2Proof.Machine
end

section
/-! The window of a draw (R190, R191), as integers. -/

namespace Sys2Proof.Machine

/-- The three checks of R190 on a rectangle and the gaps. -/
def DrawArgs.meets (bpp : Bpp) (xGap yGap : Word) (r : DrawArgs) : Prop :=
  (r.xStart.toInt < r.xEnd.toInt ∧ r.yStart.toInt < r.yEnd.toInt) ∧
  (0 ≤ r.xStart.toInt + xGap.toInt ∧ r.xEnd.toInt + xGap.toInt - 1 ≤ 0xFFFF ∧
    0 ≤ r.yStart.toInt + yGap.toInt ∧ r.yEnd.toInt + yGap.toInt - 1 ≤ 0xFFFF) ∧
  (r.xEnd.toInt - r.xStart.toInt) * (r.yEnd.toInt - r.yStart.toInt) * bpp.bits < 8 * 2 ^ 32

/-- The window and the byte count R190 and R191 give, on integers. -/
structure Window.Computes (w : Window) (bpp : Bpp) (xGap yGap : Word) (r : DrawArgs) : Prop where
  xs  : (w.xs.toNat : Int) = r.xStart.toInt + xGap.toInt
  xe  : (w.xe.toNat : Int) = r.xEnd.toInt + xGap.toInt - 1
  ys  : (w.ys.toNat : Int) = r.yStart.toInt + yGap.toInt
  ye  : (w.ye.toNat : Int) = r.yEnd.toInt + yGap.toInt - 1
  buf : w.buf = r.pixels
  pos : 0 < w.n
  n   : (w.n : Int) * 8 = (r.xEnd.toInt - r.xStart.toInt) * (r.yEnd.toInt - r.yStart.toInt) * bpp.bits

theorem toNat_ofInt_half {x : Int} (h0 : 0 ≤ x) (h1 : x ≤ 0xFFFF) : ((BitVec.ofInt 16 x).toNat : Int) = x := by
  rw [BitVec.toNat_ofInt]
  omega

/-- Both pixel formats store whole bytes (R27). -/
theorem Bpp.bits_eq (bpp : Bpp) : ∃ k : Nat, 0 < k ∧ bpp.bits = k * 8 := by
  cases bpp with
  | b16 => exact ⟨2, by decide, rfl⟩
  | b24 => exact ⟨3, by decide, rfl⟩

/-- A rectangle that meets the contract has the window R190 and R191 give. -/
theorem windowOf_of_meets {bpp : Bpp} {xGap yGap : Word} {r : DrawArgs} (h : r.meets bpp xGap yGap) :
    ∃ w, windowOf bpp xGap yGap r = some w ∧ w.Computes bpp xGap yGap r := by
  obtain ⟨⟨hx, hy⟩, ⟨hxs, hxe, hys, hye⟩, hn⟩ := h
  obtain ⟨k, hk, hbits⟩ := bpp.bits_eq
  have area : 0 < (r.xEnd.toInt - r.xStart.toInt) * (r.yEnd.toInt - r.yStart.toInt) :=
    Int.mul_pos (by omega) (by omega)
  have bytes : 0 < (r.xEnd.toInt - r.xStart.toInt) * (r.yEnd.toInt - r.yStart.toInt) * (k : Int) :=
    Int.mul_pos area (by omega)
  have bits : (r.xEnd.toInt - r.xStart.toInt) * (r.yEnd.toInt - r.yStart.toInt) * (bpp.bits : Int) =
      (r.xEnd.toInt - r.xStart.toInt) * (r.yEnd.toInt - r.yStart.toInt) * (k : Int) * 8 := by
    rw [hbits]; push_cast; ring
  rw [bits] at hn
  unfold windowOf
  simp only [bits, Int.mul_ediv_cancel _ (by decide : (8 : Int) ≠ 0)]
  rw [if_neg (not_not.2 ⟨hx, hy⟩), if_neg (not_not.2 ⟨hxs, hxe, hys, hye⟩),
    if_neg (by simp only [Config.lenBits]; omega)]
  refine ⟨_, rfl, toNat_ofInt_half hxs (by omega), toNat_ofInt_half (by omega) hxe, toNat_ofInt_half hys (by omega),
    toNat_ofInt_half (by omega) hye, rfl, ?_, ?_⟩
  · simpa using bytes
  · rw [bits, Int.toNat_of_nonneg bytes.le]

/-- A rectangle that breaks a check has none. -/
theorem windowOf_of_not_meets {bpp : Bpp} {xGap yGap : Word} {r : DrawArgs} (h : ¬ r.meets bpp xGap yGap) :
    windowOf bpp xGap yGap r = none := by
  unfold windowOf
  simp only
  split_ifs with hr hw hn
  · rfl
  · rw [not_le, Int.ediv_lt_iff_lt_mul (by decide), Int.mul_comm (2 ^ _)] at hn
    exact h ⟨hr, hw, hn⟩
  · rfl
  · rfl

theorem windowOf_computes {bpp : Bpp} {xGap yGap : Word} {r : DrawArgs} {w : Window}
    (h : windowOf bpp xGap yGap r = some w) : r.meets bpp xGap yGap ∧ w.Computes bpp xGap yGap r := by
  by_cases hm : r.meets bpp xGap yGap
  · obtain ⟨v, hv, hc⟩ := windowOf_of_meets hm
    obtain rfl : v = w := Option.some.inj (hv.symm.trans h)
    exact ⟨hm, hc⟩
  · exact absurd h (by simp [windowOf_of_not_meets hm])

/-- A window a draw goes on with is not empty, and its length fits. -/
theorem windowOf_fits {bpp : Bpp} {xGap yGap : Word} {r : DrawArgs} {w : Window}
    (h : windowOf bpp xGap yGap r = some w) :
    w.xs ≤ w.xe ∧ w.ys ≤ w.ye ∧ 0 < w.n ∧ w.n < 2 ^ Config.lenBits := by
  obtain ⟨⟨⟨hx, hy⟩, -, hn⟩, hc⟩ := windowOf_computes h
  have hxs := hc.xs
  have hxe := hc.xe
  have hys := hc.ys
  have hye := hc.ye
  have hcount := hc.n
  refine ⟨?_, ?_, hc.pos, ?_⟩
  · rw [BitVec.le_def]; omega
  · rw [BitVec.le_def]; omega
  · rw [← hcount] at hn
    simp only [Config.lenBits]
    omega

end Sys2Proof.Machine
end

section
/-! The invariant: every move of the addressed object keeps it (R20, R31, R72, R113, R130, R190, R281). -/

namespace Sys2Proof.Machine

open Config (Params)

/-! ### What the answers of the Transport and the Timer do to the rest of an object -/

theorem Panel.afterOk_free {p : Panel} (h : p.bus = .free) : p.afterOk.bus = .free := by
  unfold Panel.afterOk; split <;> simp [h]

theorem Panel.afterOk_noHold {p : Panel} (h : p.hold = none) : p.afterOk.hold = none := by
  unfold Panel.afterOk; split <;> simp [h]

@[simp] theorem Panel.afterOk_pending (p : Panel) : p.afterOk.pending = p.pending := by
  unfold Panel.afterOk; split <;> rfl

theorem Panel.afterOk_hist (p : Panel) :
    p.afterOk.hist = p.hist ∨ p.afterOk.hist = p.hist ++ [.status .ok] := by
  unfold Panel.afterOk; split <;> simp

theorem Panel.afterHold_free {p : Panel} (h : p.bus = .free) : p.afterHold.bus = .free := by
  unfold Panel.afterHold; split <;> simp [h]

theorem Panel.afterHold_noHold {p : Panel} (h : p.hold = none) : p.afterHold.hold = none := by
  unfold Panel.afterHold; split <;> simp [h]

@[simp] theorem Panel.afterHold_pending (p : Panel) : p.afterHold.pending = p.pending := by
  unfold Panel.afterHold; split <;> rfl

theorem Panel.afterHold_hist (p : Panel) :
    p.afterHold.hist = p.hist ∨ p.afterHold.hist = p.hist ++ [.status .ok] := by
  unfold Panel.afterHold; split <;> simp

/-- Diagnostics leave a BUS_ACK as outstanding as it was. -/
theorem unanswered_diags (b : Bool) (ops : List Byte) : unanswered b (ops.map .diag) = b := by
  induction ops with
  | nil => rfl
  | cons op ops ih => exact ih

theorem Panel.afterOk_unanswered (p : Panel) : unanswered false p.afterOk.hist = unanswered false p.hist := by
  obtain h | h := p.afterOk_hist <;> simp [h, unanswered]

theorem Panel.afterHold_unanswered (p : Panel) : unanswered false p.afterHold.hist = unanswered false p.hist := by
  obtain h | h := p.afterHold_hist <;> simp [h, unanswered]

theorem Panel.setReset_unanswered (p : Panel) (a : Bool) :
    unanswered false (p.setReset a).hist = unanswered false p.hist := by
  unfold Panel.setReset; split <;> simp [unanswered]

/-! ### What an FSM state relies on, from one state to the next -/

/-- Each state a BUS_ACK of ok leads to finds what it relies on. -/
theorem Panel.afterOk_fits {p : Panel} (h : p.fsmFits) : p.afterOk.fsmFits := by
  cases hf : p.fsm <;> simp_all [Panel.afterOk, Panel.fsmFits]

/-- Each state the end of a Wait leads to finds what it relies on. -/
theorem Panel.afterHold_fits {p : Panel} (h : p.fsmFits) : p.afterHold.fsmFits := by
  cases hf : p.fsm <;> simp_all [Panel.afterHold, Panel.fsmFits]

theorem Panel.fsm_ne_idle_of_transaction {par : Params} {p : Panel} {x : Transaction}
    (h : p.transaction par = some x) : p.fsm ≠ .idle := by
  intro hf; simp [Panel.transaction, hf] at h

theorem Panel.fsm_ne_idle_of_holdTime {p : Panel} {ms : Nat} (h : p.holdTime = some ms) : p.fsm ≠ .idle := by
  intro hf; simp [Panel.holdTime, hf] at h

/-- Only DRAW_RAMWR sends pixels, and its window bounds them (R191). -/
theorem Panel.pixels_fit {par : Params} {p : Panel} {op : Byte} {buf n : Nat}
    (hx : p.transaction par = some (.pix op buf n)) (h : p.fsmFits) : 0 < n ∧ n < 2 ^ Config.lenBits := by
  cases hf : p.fsm with
  | drawRamwr w =>
    simp only [Panel.transaction, hf, Option.some.injEq, Transaction.pix.injEq] at hx
    obtain ⟨-, -, rfl⟩ := hx
    simp only [Panel.fsmFits, hf] at h
    exact h.2.2
  | _ => simp [Panel.transaction, hf] at hx

namespace Panel.Inv

variable {par : Params} {p q : Panel}

/-! ### Reading the invariant -/

theorem live_of_busy (h : p.Inv par) (hf : p.fsm ≠ .idle) : p.life = .live :=
  Classical.byContradiction fun hl => hf (h.idleUnlessLive hl)

/-- In IDLE nothing is under way. -/
theorem quiet_of_idle (h : p.Inv par) (hf : p.fsm = .idle) : p.bus = .free ∧ p.hold = none := by
  have hbus := h.busFits
  have ht : p.transaction par = none := by simp [Panel.transaction, hf]
  constructor
  · cases hb : p.bus <;> simp_all
  · simpa [Panel.holdTime, hf] using h.holdFits

theorem answered_of_free (h : p.Inv par) (hb : p.bus = .free) : unanswered false p.hist = false := by
  simpa [hb] using h.answered

theorem sends_of_submitted (h : p.Inv par) {x : Transaction} (hb : p.bus = .submitted x) :
    p.transaction par = some x ∧ p.hold = none := by
  simpa [hb] using h.busFits

theorem sends_of_awaiting (h : p.Inv par) {x : Transaction} (hb : p.bus = .awaiting x) :
    p.transaction par = some x ∧ p.hold = none := by
  simpa [hb] using h.busFits

/-! ### Building it -/

/-- A live object with nothing under way. -/
theorem of_live (hl : q.life = .live) (hb : q.bus = .free) (hh : q.hold = none)
    (line : q.lineHeld = q.cfgRst.map (·.gpio)) (fits : q.fsmFits) (answered : unanswered false q.hist = false)
    (pending : ∀ e ∈ q.pending, 0 < e.n ∧ e.n < 2 ^ Config.lenBits) : q.Inv par where
  idleUnlessLive := fun h => absurd hl h
  absentIsClean := by simp [hl]
  lineHeld := by simp [hl, line]
  busFits := by simp [hb]
  holdFits := .inl hh
  fsmFits := fits
  answered := by simp [hb, answered]
  pendingFits := pending

/-- An operation goes on or ends: nothing is under way after the move, and object and line stay. -/
theorem goesOn (h : p.Inv par) (hf : p.fsm ≠ .idle) (hb : q.bus = .free) (hh : q.hold = none) (fits : q.fsmFits)
    (answered : unanswered false q.hist = false)
    (pending : ∀ e ∈ q.pending, 0 < e.n ∧ e.n < 2 ^ Config.lenBits := by exact h.pendingFits)
    (life : q.life = p.life := by simp) (rst : q.cfgRst = p.cfgRst := by simp)
    (line : q.lineHeld = p.lineHeld := by simp) : q.Inv par := by
  have hl := h.live_of_busy hf
  exact of_live (life.trans hl) hb hh (by rw [line, rst, h.lineHeld, if_pos hl]) fits answered pending

/-- A change of faults, transfers and marks, and events that are neither a BUS transaction nor a BUS_ACK. -/
theorem touched (h : p.Inv par) {f : FaultBits} {pend : List Pending} {events : List Event} {raced : Bool}
    (hq : q = { p with faults := f, pending := pend, hist := events, sendRaced := raced })
    (clean : p.life = .absent → pend = [] ∧ f = FaultBits.none)
    (answered : unanswered false events = unanswered false p.hist)
    (pending : ∀ e ∈ pend, 0 < e.n ∧ e.n < 2 ^ Config.lenBits) : q.Inv par := by
  subst hq
  exact ⟨h.idleUnlessLive, clean, h.lineHeld, h.busFits, h.holdFits, h.fsmFits, answered.trans h.answered, pending⟩

/-! ### Rows the FSM emits -/

theorem emits (h : p.Inv par) (hq : p.Emits par q) : q.Inv par := by
  cases hq with
  | submit x hb hh hx =>
    exact ⟨h.idleUnlessLive, h.absentIsClean, h.lineHeld, ⟨hx, hh⟩, .inl hh, h.fsmFits, h.answered_of_free hb,
      h.pendingFits⟩
  | transmit x f hb =>
    obtain ⟨hx, hh⟩ := h.sends_of_submitted hb
    exact ⟨h.idleUnlessLive, h.absentIsClean, h.lineHeld, ⟨hx, hh⟩, .inl hh, h.fsmFits, by simp [unanswered],
      h.pendingFits⟩

/-! ### Actions -/

/-- A BUS_ACK (R110, R113, R233). -/
theorem acknowledge (h : p.Inv par) {x : Transaction} (hb : p.bus = .awaiting x) (ok : Bool) :
    (p.acknowledge x ok).Inv par := by
  obtain ⟨hx, hh⟩ := h.sends_of_awaiting hb
  have hf := Panel.fsm_ne_idle_of_transaction hx
  cases ok with
  | false =>
    rw [Panel.acknowledge_err]
    exact h.goesOn hf rfl rfl trivial (by simp [unanswered])
  | true =>
    cases x with
    | cmd op payload =>
      rw [Panel.acknowledge_cmd]
      exact h.goesOn hf (Panel.afterOk_free rfl) (Panel.afterOk_noHold hh) (Panel.afterOk_fits h.fsmFits)
        (by simp [Panel.afterOk_unanswered, unanswered]) (by simpa using h.pendingFits)
    | pix op buf n =>
      have hn := Panel.pixels_fit hx h.fsmFits
      have pending : ∀ e ∈ p.pending ++ [⟨buf, n, p.sendRaced⟩], 0 < e.n ∧ e.n < 2 ^ Config.lenBits := by
        intro e he
        obtain he | he := List.mem_append.1 he
        · exact h.pendingFits e he
        · obtain rfl := List.mem_singleton.1 he
          exact hn
      rw [Panel.acknowledge_pix]
      exact h.goesOn hf (Panel.afterOk_free rfl) (Panel.afterOk_noHold hh) (Panel.afterOk_fits h.fsmFits)
        (by simp [Panel.afterOk_unanswered, unanswered]) (by simpa using pending)

/-- The end of a Wait (R134, R135, R162, R167). -/
theorem endHold (h : p.Inv par) {ms : Nat} (hb : p.bus = .free) (hh : p.hold = some ms) : (p.endHold ms).Inv par := by
  have ht : p.holdTime = some ms := (h.holdFits.resolve_left (by simp [hh])).symm.trans hh
  unfold Panel.endHold
  refine h.goesOn (Panel.fsm_ne_idle_of_holdTime ht) (Panel.afterHold_free hb) (Panel.afterHold_noHold rfl)
    (Panel.afterHold_fits h.fsmFits) ?_ (by simpa using h.pendingFits)
  simp [Panel.afterHold_unanswered, unanswered, h.answered_of_free hb]

/-- The start of a Wait (R281). -/
theorem startHold (h : p.Inv par) {ms : Nat} (hb : p.bus = .free) (ht : p.holdTime = some ms) :
    (p.startHold ms).Inv par where
  idleUnlessLive := h.idleUnlessLive
  absentIsClean := h.absentIsClean
  lineHeld := h.lineHeld
  busFits := by simp [hb]
  holdFits := .inr ht.symm
  fsmFits := h.fsmFits
  answered := by simp [hb, unanswered, h.answered_of_free hb]
  pendingFits := h.pendingFits

/-- The line is driven and the hold that follows is entered (R134). -/
theorem drives (h : p.Inv par) (hb : p.bus = .free) (hh : p.hold = none) (hr : p.cfgRst.isSome) (hf : p.fsm ≠ .idle)
    (a : Bool) {f : Fsm} (hold : f = .rstHold1 ∨ f = .rstHold2) : Panel.Inv par { p.setReset a with fsm := f } := by
  have fits : Panel.fsmFits { p.setReset a with fsm := f } := by
    obtain rfl | rfl := hold <;> simpa [Panel.fsmFits] using hr
  exact h.goesOn hf (by simpa using hb) (by simpa using hh) fits
    (by simp [Panel.setReset_unanswered, h.answered_of_free hb]) (by simpa using h.pendingFits)

theorem acts (h : p.Inv par) (hq : p.Acts par q) : q.Inv par := by
  have fits := h.fsmFits
  cases hq with
  | acknowledge x ok hb => exact h.acknowledge hb ok
  | endHold ms hb hh => exact h.endHold hb hh
  | startHold ms hb _ ht => exact h.startHold hb ht
  | assertReset hb hh hf => exact h.drives hb hh (by simpa [Panel.fsmFits, hf] using fits) (by simp [hf]) true (.inl rfl)
  | deassertReset hb hh hf =>
    exact h.drives hb hh (by simpa [Panel.fsmFits, hf] using fits) (by simp [hf]) false (.inr rfl)
  | endTable hb hh hf | tableDefect _ hb hh hf | rejectDraw _ hb hh hf =>
    exact h.goesOn (by simp [hf]) rfl rfl trivial (by simp [unanswered, h.answered_of_free hb])
  | sendRow hb hh hf hlt => exact h.goesOn (by simp [hf]) hb hh hlt (h.answered_of_free hb)
  | overrideMadctl r v more seen ops hb hh hf hr | overrideColmod r v more seen ops hb hh hf hr =>
    exact h.goesOn (by simp [hf]) hb hh (List.getElem?_eq_some_iff.1 hr).1
      (by simp [unanswered_diags, h.answered_of_free hb])
  | nextRow hb hh hf hlt => exact h.goesOn (by simp [hf]) hb hh (Nat.succ_le_of_lt hlt) (h.answered_of_free hb)
  | openWindow r w hb hh hf hw => exact h.goesOn (by simp [hf]) hb hh (windowOf_fits hw) (h.answered_of_free hb)
  | updateOrient c hb hh hf => exact h.goesOn (by simp [hf]) hb hh trivial (h.answered_of_free hb)
  | deliver e rest bytes hp =>
    refine h.touched rfl (fun hl => ?_) (by simp [unanswered]) fun e' he' => h.pendingFits e' (by simp [hp, he'])
    exact absurd (h.absentIsClean hl).1 (by simp [hp])

theorem runs (h : p.Inv par) (hq : p.Runs par q) : q.Inv par := by
  cases hq with
  | stays => exact h
  | emits he => exact h.emits he
  | acts ha => exact h.acts ha

end Panel.Inv

end Sys2Proof.Machine
end

section
/-! Requests, create and host writes keep the invariant; then so does every step. -/

namespace Sys2Proof.Machine

open Config (Params)

/-! ### create (R130, R131) -/

/-- The claim of a line adds an event of the line, and holds the line where it is granted. -/
theorem State.claimLine_panel (s : State) (l : Option ResetLine) : ∃ events, (∀ b, unanswered b events = b) ∧
    (s.claimLine l).2.panel = { s.panel with
      lineHeld := if (s.claimLine l).1 then (l.map (·.gpio)).or s.panel.lineHeld else s.panel.lineHeld
      hist := s.panel.hist ++ events } := by
  cases l with
  | none => exact ⟨[], fun _ => rfl, by simp [State.claimLine]⟩
  | some l =>
    exact ⟨[.claim l.gpio s.ask.1], fun _ => rfl, by cases hg : s.ask.1 <;> simp [State.claimLine, hg]⟩

theorem State.freeLevel_panel (s : State) (l : Option ResetLine) :
    (s.freeLevel l).panel = { s.panel with pin := (s.freeLevel l).panel.pin } := by
  cases l <;> simp [State.freeLevel]

/-- Every way a create on an absent slot that holds no line can end: it fails and leaves the slot as it was but for its
history, or it makes an object that holds its line. -/
theorem State.createHere_cases (s : State) (t : Option Variant) (l : Option ResetLine) (co bpp : Byte)
    (tab : Option (List InitRow)) (hl : s.panel.lineHeld = none) :
    ∃ events, (∀ b, unanswered b events = b) ∧
      ((∃ st, (s.createHere t l co bpp tab).panel = Panel.finish { s.panel with hist := s.panel.hist ++ events } st) ∨
      ∃ v bgr fmt pin, (s.createHere t l co bpp tab).panel =
        (Panel.construct { s.panel with lineHeld := l.map (·.gpio), pin := pin, hist := s.panel.hist ++ events }
          s.params v l bgr fmt tab).finish .ok) := by
  have failed (st : Status) : ∃ events, (∀ b, unanswered b events = b) ∧
      s.panel.finish st = Panel.finish { s.panel with hist := s.panel.hist ++ events } st :=
    ⟨[], fun _ => rfl, by simp⟩
  unfold State.createHere
  cases t with
  | none =>
    obtain ⟨events, hq, he⟩ := failed .invalidArgument
    exact ⟨events, hq, .inl ⟨_, he⟩⟩
  | some v =>
    simp only
    obtain ⟨events, hq, hc⟩ := s.ask.2.claimLine_panel l
    simp only [State.ask_panel, hl, Option.or_none] at hc
    split
    · split
      · rename_i granted
        rw [if_pos granted] at hc
        unfold State.configure
        split
        · cases l with
          | none => exact ⟨events, hq, .inl ⟨.unsupportedConfig, by simp [Panel.releaseLine, hc, ← hl]⟩⟩
          | some l =>
            exact ⟨events ++ [.release l.gpio], by simp [hq, unanswered],
              .inl ⟨.unsupportedConfig, by simp [Panel.releaseLine, hc, ← hl]⟩⟩
        · rename_i bgr fmt _
          refine ⟨events, hq, .inr ⟨v, bgr, fmt, ((s.ask.2.claimLine l).2.freeLevel l).panel.pin, ?_⟩⟩
          rw [State.onPanel_panel, State.freeLevel_panel, hc, (s.ask.2.claimLine_rest l).2.2.1, State.ask_params]
      · rename_i refused
        rw [if_neg refused] at hc
        exact ⟨events, hq, .inl ⟨.resetLineError, by simp [hc, ← hl]⟩⟩
    · obtain ⟨events, hq, he⟩ := failed .outOfMemory
      exact ⟨events, hq, .inl ⟨_, by simpa using he⟩⟩

@[simp] theorem Panel.releaseLine_pending (p : Panel) (l : Option ResetLine) :
    (p.releaseLine l).pending = p.pending := by
  cases l <;> rfl

theorem Panel.releaseLine_unanswered (p : Panel) (l : Option ResetLine) :
    unanswered false (p.releaseLine l).hist = unanswered false p.hist := by
  cases l <;> simp [Panel.releaseLine, unanswered]

namespace Panel.Inv

variable {par : Params} {p : Panel}

theorem absent (par : Params) : Panel.absent.Inv par where
  idleUnlessLive := fun _ => rfl
  absentIsClean := fun _ => ⟨rfl, rfl⟩
  lineHeld := rfl
  busFits := trivial
  holdFits := .inl rfl
  fsmFits := trivial
  answered := rfl
  pendingFits := fun _ h => nomatch h

/-- A failed create leaves an absent slot as it was but for its history (R131). -/
theorem failedCreate (h : p.Inv par) (ha : p.life = .absent) {events : List Event}
    (hq : ∀ b, unanswered b events = b) (st : Status) :
    (Panel.finish { p with hist := p.hist ++ events } st).Inv par where
  idleUnlessLive := fun _ => rfl
  absentIsClean := h.absentIsClean
  lineHeld := h.lineHeld
  busFits := trivial
  holdFits := .inl rfl
  fsmFits := trivial
  answered := by
    have idle := h.idleUnlessLive (by simp [ha])
    simp [hq, unanswered, h.answered_of_free (h.quiet_of_idle idle).1]
  pendingFits := h.pendingFits

/-- A create makes a live object in IDLE that holds its line (R42, R130). -/
theorem madeByCreate (h : p.Inv par) (ha : p.life = .absent) {events : List Event}
    (hq : ∀ b, unanswered b events = b) (v : Variant) (l : Option ResetLine) (bgr : Bool) (fmt : Bpp)
    (tab : Option (List InitRow)) (pin : Bool) :
    ((Panel.construct { p with lineHeld := l.map (·.gpio), pin := pin, hist := p.hist ++ events }
      par v l bgr fmt tab).finish .ok).Inv par := by
  have idle := h.idleUnlessLive (by simp [ha])
  exact of_live rfl rfl rfl rfl trivial
    (by simp [Panel.construct, hq, unanswered, h.answered_of_free (h.quiet_of_idle idle).1])
    (fun _ h => nomatch h)

theorem createHere {s : State} (h : s.panel.Inv s.params) (ha : s.panel.life = .absent) (t : Option Variant)
    (l : Option ResetLine) (co bpp : Byte) (tab : Option (List InitRow)) :
    (s.createHere t l co bpp tab).panel.Inv s.params := by
  have hl : s.panel.lineHeld = none := by simpa [ha] using h.lineHeld
  obtain ⟨events, hq, ⟨st, he⟩ | ⟨v, bgr, fmt, pin, he⟩⟩ := s.createHere_cases t l co bpp tab hl
  · exact he ▸ h.failedCreate ha hq st
  · exact he ▸ h.madeByCreate ha hq v l bgr fmt tab pin

/-! ### Requests (R238) -/

theorem declined (h : p.Inv par) (hd : p.declines) (f : FaultName) : (p.setFault f).Inv par := by
  refine h.touched rfl (fun ha => ?_) rfl h.pendingFits
  obtain hd | hd := hd
  · exact absurd (ha.symm.trans hd) (by simp)
  · exact absurd (h.idleUnlessLive (by simp [ha])) hd

/-- An operation starts on a live object with nothing under way. -/
theorem started (h : p.Inv par) (hf : p.fsm = .idle) (hl : p.life = .live) (i : Instr) : (p.started i).Inv par := by
  obtain ⟨hb, hh⟩ := h.quiet_of_idle hf
  have line : p.lineHeld = p.cfgRst.map (·.gpio) := by simpa [hl] using h.lineHeld
  have quiet := h.answered_of_free hb
  cases i with
  | reset =>
    refine of_live (q := { p with fsm := _ }) hl hb hh line ?_ quiet h.pendingFits
    cases hr : p.cfgRst <;> simp [Panel.fsmFits]
  | init | draw | mirror | swapXy | invertColor | displayOnOff =>
    dsimp only [Panel.started]
    exact of_live hl hb hh line trivial quiet h.pendingFits
  | setGap =>
    dsimp only [Panel.started]
    exact of_live hl rfl rfl line trivial (by simp [unanswered, quiet]) h.pendingFits
  | destroy =>
    dsimp only [Panel.started]
    have released : (p.releaseLine p.cfgRst).lineHeld = none := by
      cases hr : p.cfgRst <;> simp [Panel.releaseLine, line, hr]
    exact ⟨fun _ => rfl, nofun, released, trivial, .inl rfl, trivial,
      by simp [Panel.releaseLine_unanswered, unanswered, quiet], by simpa using h.pendingFits⟩
  | _ => exact h

/-! ### Host writes (R74, R76) -/

/-- No host write is a race for an absent slot. -/
theorem noteWrite_of_absent (h : p.Inv par) (ha : p.life = .absent) (a : Nat) : p.noteWrite a = p := by
  have idle := h.idleUnlessLive (by simp [ha])
  simp [Panel.noteWrite, Panel.drawCovers, p.drawBuffer_idle idle, (h.absentIsClean ha).1]

theorem noteWrite_pending_fits (h : p.Inv par) (a : Nat) :
    ∀ e ∈ (p.noteWrite a).pending, 0 < e.n ∧ e.n < 2 ^ Config.lenBits := by
  unfold Panel.noteWrite
  split
  · intro e he
    obtain ⟨e', he', rfl⟩ := List.mem_map.1 he
    split <;> exact h.pendingFits e' he'
  · exact h.pendingFits

theorem noteWrite (h : p.Inv par) (a : Nat) : (p.noteWrite a).Inv par :=
  h.touched (events := p.hist) (p.noteWrite_frame a)
    (fun ha => by rw [h.noteWrite_of_absent ha]; exact h.absentIsClean ha) rfl (h.noteWrite_pending_fits a)

end Panel.Inv

end Sys2Proof.Machine
end

section
/-! What a step can do to the objects (R238, R247), and the invariant of the machine. -/

namespace Sys2Proof.Machine

open Config (Params)

/-- What a create can make of a slot. -/
def Panel.CreatedAs (par : Params) (p q : Panel) : Prop :=
  ∃ (u : State) (v : Option Variant) (l : Option ResetLine) (co bpp : Byte) (tab : Option (List InitRow)),
    u.panel = p ∧ u.params = par ∧ q = (u.createHere v l co bpp tab).panel

/-- What a request or a run does to the addressed object and the others: it runs, declines a request or starts on one;
or a create fills its slot, or a fresh one where it is live. -/
inductive ObjectsMove (par : Params) (p : Panel) (others : List Panel) : Panel → List Panel → Prop
  | runs {q : Panel} : p.Runs par q → ObjectsMove par p others q others
  | declines (f : FaultName) : p.declines → ObjectsMove par p others (p.setFault f) others
  | starts (i : Instr) : p.fsm = .idle → p.life = .live → ObjectsMove par p others (p.started i) others
  | creates {q : Panel} : p.life = .absent → p.CreatedAs par q → ObjectsMove par p others q others
  | createsFresh {q : Panel} : Panel.absent.CreatedAs par q → ObjectsMove par p others q (others ++ [p])

theorem execCreate_moves {s t : State} {v : Option Variant} {l : Option ResetLine} {co bpp : Byte}
    {tab : Option (List InitRow)} (h : execCreate v l co bpp tab s = .next t) :
    ObjectsMove s.params s.panel s.others t.panel t.others := by
  unfold execCreate at h
  split at h
  · cases hl : s.panel.life with
    | absent =>
      rw [hl] at h
      cases h
      rw [(s.createHere_rest v l co bpp tab).1]
      exact .creates hl ⟨s, v, l, co, bpp, tab, rfl, rfl, rfl⟩
    | live =>
      rw [hl] at h
      cases h
      rw [(s.setAside.createHere_rest v l co bpp tab).1]
      exact .createsFresh ⟨s.setAside, v, l, co, bpp, tab, rfl, rfl, rfl⟩
    | destroyed =>
      rw [hl] at h
      cases h
      exact .declines .useAfterDestroy (.inl hl)
  · cases h

theorem exec_moves {s t : State} {i : Instr} (h : exec i s = .next t) :
    ObjectsMove s.params s.panel s.others t.panel t.others := by
  obtain ⟨a, l, c, b, d, rfl⟩ | ⟨f, hd, rfl⟩ | ⟨-, hf, hl, rfl⟩ | ⟨q, hq, rfl⟩ := exec_cases h
  · exact execCreate_moves h
  · exact .declines f hd
  · exact .starts i hf hl
  · exact .runs (.emits hq)

theorem State.present_moves {s t : State} {record : List Byte} (h : s.present record = .next t) :
    ObjectsMove s.params s.panel s.others t.panel t.others := by
  unfold State.present at h
  split at h
  · exact exec_moves h
  · cases h

theorem State.foreground_moves {s t : State} (h : s.foreground = .next t) :
    ObjectsMove s.params s.panel s.others t.panel t.others := by
  obtain ⟨hq, ho⟩ | ⟨record, rest, -, hp⟩ := State.foreground_runs h
  · exact ho ▸ .runs hq
  · have hm := State.present_moves hp
    exact hm

/-- Every way a step can move the objects: as above, or by a move of the host: a write, a turn to another object, a turn
to a fresh slot. -/
theorem step_moves {s t : State} (h : step s = .next t) :
    ObjectsMove s.params s.panel s.others t.panel t.others ∨
    (∃ a, t.panel = s.panel.noteWrite a ∧ t.others = s.others.map (·.noteWrite a)) ∨
    (∃ k rest, s.inputs = .select k :: rest ∧ t = State.select { s with inputs := rest } k) ∨
    (t.panel = Panel.absent ∧ t.others = s.others ++ [s.panel]) := by
  obtain ⟨rest, n, hf⟩ | ⟨rest, n, hc⟩ | ⟨record, rest, -, hp⟩ | ⟨a, b, rest, -, rfl⟩ | hs | ⟨rest, -, rfl⟩ :=
    step_cases h
  · have hm := State.foreground_moves hf
    exact .inl hm
  · obtain ⟨hq, ho⟩ := State.complete_runs hc
    exact .inl (ho ▸ .runs hq)
  · have hm := State.present_moves hp
    exact .inl hm
  · exact .inr (.inl ⟨a, rfl, rfl⟩)
  · exact .inr (.inr (.inl hs))
  · exact .inr (.inr (.inr ⟨rfl, rfl⟩))

/-- A turn to another object changes places with it, or finds none there. -/
theorem State.select_cases (s : State) (k : Nat) :
    (∃ q, s.others[k]? = some q ∧ (s.select k).panel = q ∧ (s.select k).others = s.others.set k s.panel) ∨
    s.select k = s := by
  unfold State.select
  split
  · exact .inl ⟨_, ‹_›, rfl, rfl⟩
  · exact .inr rfl

/-! ### The invariant -/

theorem Panel.CreatedAs.inv {par : Params} {p q : Panel} (hc : p.CreatedAs par q) (h : p.Inv par)
    (ha : p.life = .absent) : q.Inv par := by
  obtain ⟨u, v, l, co, bpp, tab, rfl, rfl, rfl⟩ := hc
  exact Panel.Inv.createHere h ha v l co bpp tab

theorem ObjectsMove.inv {par : Params} {p q : Panel} {others others' : List Panel}
    (hm : ObjectsMove par p others q others') (h : p.Inv par) (ho : ∀ o ∈ others, o.Inv par) :
    q.Inv par ∧ ∀ o ∈ others', o.Inv par := by
  cases hm with
  | runs hq => exact ⟨h.runs hq, ho⟩
  | declines f hd => exact ⟨h.declined hd f, ho⟩
  | starts i hf hl => exact ⟨h.started hf hl i, ho⟩
  | creates ha hc => exact ⟨hc.inv h ha, ho⟩
  | createsFresh hc =>
    exact ⟨hc.inv (.absent par) rfl, List.forall_mem_append.2 ⟨ho, List.forall_mem_singleton.2 h⟩⟩

/-- Every step keeps the invariant of every object. -/
theorem step_keeps_objects {s t : State} (hs : s.Inv) (h : step s = .next t) :
    t.panel.Inv s.params ∧ ∀ o ∈ t.others, o.Inv s.params := by
  obtain hm | ⟨a, hp, ho⟩ | ⟨k, rest, -, rfl⟩ | ⟨hp, ho⟩ := step_moves h
  · exact hm.inv hs.panel hs.others
  · rw [hp, ho]
    exact ⟨hs.panel.noteWrite a, List.forall_mem_map.2 fun o hmem => (hs.others o hmem).noteWrite a⟩
  · obtain ⟨q, hq, hp, ho⟩ | he := State.select_cases { s with inputs := rest } k
    · rw [hp, ho]
      refine ⟨hs.others q (List.mem_of_getElem? hq), fun o hmem => ?_⟩
      obtain hmem | rfl := List.mem_or_eq_of_mem_set hmem
      · exact hs.others o hmem
      · exact hs.panel
    · rw [he]
      exact ⟨hs.panel, hs.others⟩
  · rw [hp, ho]
    exact ⟨.absent _, List.forall_mem_append.2 ⟨hs.others, List.forall_mem_singleton.2 hs.panel⟩⟩

theorem State.select_mem (s : State) (k : Nat) : (s.select k).mem = s.mem := by
  unfold State.select; split <;> rfl

/-- Every step keeps the canonical form of host memory. -/
theorem step_keeps_memory_wf {s t : State} (hs : Memory.wf s.mem = true) (h : step s = .next t) :
    Memory.wf t.mem = true := by
  obtain hk | ⟨a, b, rest, -, rfl⟩ | ⟨k, rest, -, rfl⟩ := step_restKept_or h
  · exact hk.mem ▸ hs
  · exact Memory.write_wf s.mem a b hs
  · rw [State.select_mem]; exact hs

/-- Settles O53: a step moves the addressed object in one of the ways listed above, and each keeps the invariant. -/
theorem stepKeepsTheInvariant : Obligations.StepKeepsTheInvariant := by
  unfold Obligations.StepKeepsTheInvariant
  intro s t hs h
  obtain ⟨panel, others⟩ := step_keeps_objects hs h
  rw [← step_params h] at panel others
  exact ⟨step_keeps_memory_wf hs.memory h, panel, others⟩

/-- Settles O52: memory is empty and the only object is an absent slot. -/
theorem resetMeetsTheInvariant : Obligations.ResetMeetsTheInvariant := by
  unfold Obligations.ResetMeetsTheInvariant
  exact ⟨State.reset_mem_wf, .absent _, fun _ h => nomatch h⟩

end Sys2Proof.Machine
end

section
/-! No step faults under the invariant (R31). -/

namespace Sys2Proof.Machine

open Config (Params)

theorem State.accept_ne_fault (s : State) (start : Panel → Panel) (f : Fault) : s.accept start ≠ .fault f := by
  unfold State.accept
  split
  · split <;> nofun
  · nofun

theorem State.submit_ne_fault (s : State) (i : Instr) (x : Transaction) (f : Fault) : s.submit i x ≠ .fault f := by
  unfold State.submit; split <;> nofun

theorem State.transmit_ne_fault (s : State) (i : Instr) (x : Transaction) (b : BusTxn) (f : Fault) :
    s.transmit i x b ≠ .fault f := by
  unfold State.transmit; split <;> nofun

theorem execCreate_ne_fault (v : Option Variant) (l : Option ResetLine) (co bpp : Byte) (tab : Option (List InitRow))
    (s : State) (f : Fault) : execCreate v l co bpp tab s ≠ .fault f := by
  unfold execCreate
  split
  · split <;> nofun
  · nofun

/-- An instruction completes or is refused. -/
theorem exec_ne_fault (i : Instr) (s : State) (f : Fault) : exec i s ≠ .fault f := by
  cases i with
  | create => exact execCreate_ne_fault _ _ _ _ _ s f
  | reset | init | draw | mirror | swapXy | invertColor | displayOnOff | setGap | destroy => exact s.accept_ne_fault _ f
  | reqInvalid | reqInvalidHi | qspiRead => nofun
  | sendCommandQuad | sendPixelsQuad | sendCommandPlain | sendPixelsPlain => exact s.transmit_ne_fault _ _ _ f
  | swreset | slpout | invoff | invon | dispoff | dispon | caset | raset | ramwr | madctl | colmod | vendorRow =>
    exact s.submit_ne_fault _ _ f

theorem State.present_ne_fault (s : State) (record : List Byte) (f : Fault) : s.present record ≠ .fault f := by
  unfold State.present
  split
  · exact exec_ne_fault _ s f
  · nofun

theorem State.complete_ne_fault (s : State) (f : Fault) : s.complete ≠ .fault f := by
  unfold State.complete
  split
  · nofun
  · split
    · nofun
    · split <;> nofun

theorem State.fetchRequest_ne_fault (s : State) (f : Fault) : s.fetchRequest ≠ .fault f := by
  unfold State.fetchRequest
  split
  · nofun
  · exact State.present_ne_fault _ _ f

/-- Where ROW is inside the table the row check goes on (R31). -/
theorem Panel.rowCheck_ne_none {par : Params} {p : Panel} (h : p.row ≤ p.cfgTable.length) : p.rowCheck par ≠ none := by
  unfold Panel.rowCheck
  split
  · nofun
  · simp only [ne_eq, Option.map_eq_none_iff, List.getElem?_eq_none_iff]
    omega

theorem Panel.rowWait_ne_none {p : Panel} (h : p.row < p.cfgTable.length) : p.rowWait ≠ none := by
  simpa [Panel.rowWait] using h

/-- The FSM's own action never faults: a row state has its row (R31), and a sending state emits one instead. -/
theorem State.fsmAction_ne_fault {s : State} (h : s.panel.Inv s.params) (hc : s.panel.commandRow = none) (f : Fault) :
    s.fsmAction ≠ .fault f := by
  have fits := h.fsmFits
  unfold Panel.fsmFits at fits
  unfold Panel.commandRow at hc
  unfold State.fsmAction
  cases hf : s.panel.fsm with
  | idle => exact s.fetchRequest_ne_fault f
  | rstAssert | rstHold1 | rstDeassert | rstHold2 | rstSwhold | initSlpwait | drawCheck | oriUpdate => nofun
  | initRowCheck =>
    simp only [hf] at fits
    have some_row := Panel.rowCheck_ne_none (par := s.params) fits
    dsimp only
    split
    · nofun
    · contradiction
  | initRowWait =>
    simp only [hf] at fits
    have some_row := Panel.rowWait_ne_none fits
    dsimp only
    split
    · nofun
    · contradiction
  | initRowSend =>
    simp only [hf] at fits hc
    simp only [Option.map_eq_none_iff, List.getElem?_eq_none_iff] at hc
    omega
  | rstSwreset | initSlpout | initPushMadctl | initPushColmod | drawCaset | drawRaset | drawRamwr | oriSend | cmdSend =>
    simp [hf] at hc

theorem State.foreground_ne_fault {s : State} (h : s.panel.Inv s.params) (f : Fault) : s.foreground ≠ .fault f := by
  unfold State.foreground
  split
  · exact exec_ne_fault _ s f
  · rename_i hn
    split
    · nofun
    · nofun
    · rename_i hb hh
      refine State.fsmAction_ne_fault h ?_ f
      cases hbus : s.panel.bus <;> simp_all [Panel.nextRow]

theorem State.schedule_ne_fault {s : State} (h : s.panel.Inv s.params) (f : Fault) : s.schedule ≠ .fault f := by
  unfold State.schedule
  split
  · exact State.foreground_ne_fault h f
  · split
    · split
      · exact State.complete_ne_fault _ f
      · exact State.foreground_ne_fault (s := { s with draws := s.draws + 1 }) h f
    · exact s.complete_ne_fault f

/-- Settles O54: only the foreground in a row state can fault, and the invariant keeps ROW inside the table there. -/
theorem noStepFaults : Obligations.NoStepFaults := by
  unfold Obligations.NoStepFaults
  intro s f hs
  cases hi : s.inputs with
  | nil =>
    rw [step, State.advance, hi]
    exact State.schedule_ne_fault hs.panel f
  | cons m rest =>
    rw [step_input s m rest hi]
    cases m with
    | turn => exact State.foreground_ne_fault (s := { s with inputs := rest }) hs.panel f
    | complete => exact State.complete_ne_fault _ f
    | request record => exact State.present_ne_fault _ record f
    | write | select | freshPanel => nofun

end Sys2Proof.Machine
end

section
/-! What a move of an object leaves as it was and what only grows (R21, R32, R35, R41). -/

namespace Sys2Proof.Machine

open Config (Params)

theorem FaultBits.has_set (b : FaultBits) (f g : FaultName) : (b.set g).has f = (decide (g = f) || b.has f) := by
  cases g <;> cases f <;> simp [FaultBits.set, FaultBits.has]

/-- The bits are sticky (R32). -/
theorem FaultBits.has_set_of_has {b : FaultBits} {f : FaultName} (g : FaultName) (h : b.has f = true) :
    (b.set g).has f = true := by
  simp [FaultBits.has_set, h]

namespace Panel.Continues

variable {par : Params} {p q : Panel}

theorem refl (p : Panel) : p.Continues p := ⟨rfl, rfl, rfl, rfl, List.prefix_rfl, List.prefix_rfl, fun _ h => h⟩

/-- With configuration, DIAG and faults as they were, the history has only to grow. -/
theorem of_hist (hist : p.hist <+: q.hist) (variant : q.cfgVariant = p.cfgVariant := by simp)
    (rst : q.cfgRst = p.cfgRst := by simp) (table : q.cfgTable = p.cfgTable := by simp)
    (bpp : q.bpp = p.bpp := by simp) (diag : q.diag = p.diag := by simp) (faults : q.faults = p.faults := by simp) :
    q.Continues p :=
  ⟨variant, rst, table, bpp, hist, diag ▸ List.prefix_rfl, fun _ h => faults ▸ h⟩

theorem trans {r : Panel} (h : q.Continues p) (k : r.Continues q) : r.Continues p :=
  ⟨k.cfgVariant.trans h.cfgVariant, k.cfgRst.trans h.cfgRst, k.cfgTable.trans h.cfgTable, k.bpp.trans h.bpp,
    h.hist.trans k.hist, h.diag.trans k.diag, fun f hf => k.faults f (h.faults f hf)⟩

theorem setFault (p : Panel) (f : FaultName) : (p.setFault f).Continues p :=
  ⟨rfl, rfl, rfl, rfl, List.prefix_rfl, List.prefix_rfl, fun _ h => FaultBits.has_set_of_has f h⟩

theorem finish (p : Panel) (st : Status) : (p.finish st).Continues p := of_hist (List.prefix_append _ _)

theorem noteWrite (p : Panel) (a : Nat) : (p.noteWrite a).Continues p := by
  unfold Panel.noteWrite
  split
  · exact ⟨rfl, rfl, rfl, rfl, List.prefix_rfl, List.prefix_rfl, (setFault p .bufferRace).faults⟩
  · exact refl p

theorem setReset (p : Panel) (a : Bool) : (p.setReset a).Continues p :=
  of_hist (by unfold Panel.setReset; split <;> simp)

theorem afterOk (p : Panel) : p.afterOk.Continues p :=
  of_hist (by obtain h | h := p.afterOk_hist <;> simp [h])

theorem afterHold (p : Panel) : p.afterHold.Continues p :=
  of_hist (by obtain h | h := p.afterHold_hist <;> simp [h])

theorem acknowledge (p : Panel) (x : Transaction) (ok : Bool) : (p.acknowledge x ok).Continues p := by
  cases ok with
  | false =>
    rw [Panel.acknowledge_err]
    exact of_hist (List.prefix_append _ _)
  | true =>
    cases x with
    | cmd =>
      rw [Panel.acknowledge_cmd]
      refine trans ?_ (afterOk _)
      exact of_hist (List.prefix_append _ _)
    | pix =>
      rw [Panel.acknowledge_pix]
      refine trans ?_ (afterOk _)
      exact of_hist (List.prefix_append _ _)

theorem endHold (p : Panel) (ms : Nat) : (p.endHold ms).Continues p := by
  refine trans ?_ (afterHold _)
  exact of_hist (List.prefix_append _ _)

theorem assertReset (p : Panel) : p.assertReset.Continues p := by
  refine (setReset p true).trans ?_
  unfold Panel.assertReset
  exact of_hist List.prefix_rfl

theorem deassertReset (p : Panel) : p.deassertReset.Continues p := by
  refine (setReset p false).trans ?_
  unfold Panel.deassertReset
  exact of_hist List.prefix_rfl

theorem releaseLine (p : Panel) (l : Option ResetLine) : (p.releaseLine l).Continues p := by
  cases l with
  | none => exact refl p
  | some l =>
    unfold Panel.releaseLine
    exact of_hist (List.prefix_append _ _)

theorem emits (h : p.Emits par q) : q.Continues p := by
  cases h with
  | submit => exact of_hist List.prefix_rfl
  | transmit => exact of_hist (List.prefix_append _ _)

theorem acts (h : p.Acts par q) : q.Continues p := by
  cases h with
  | acknowledge x ok => exact acknowledge p x ok
  | endHold ms => exact endHold p ms
  | assertReset => exact assertReset p
  | deassertReset => exact deassertReset p
  | tableDefect op => exact (setFault p .tableDefect).trans (finish _ _)
  | rejectDraw => exact (setFault p .contract).trans (finish _ _)
  | overrideMadctl | overrideColmod =>
    exact ⟨rfl, rfl, rfl, rfl, List.prefix_append _ _, List.prefix_append _ _, fun _ h => h⟩
  | startHold | endTable | deliver => exact of_hist (List.prefix_append _ _)
  | sendRow | nextRow | openWindow | updateOrient => exact of_hist List.prefix_rfl

theorem runs (h : p.Runs par q) : q.Continues p := by
  cases h with
  | stays => exact refl p
  | emits he => exact emits he
  | acts ha => exact acts ha

theorem started (p : Panel) (i : Instr) : (p.started i).Continues p := by
  cases i with
  | init =>
    refine ⟨rfl, rfl, rfl, rfl, List.prefix_rfl, List.prefix_rfl, fun f h => ?_⟩
    dsimp only [Panel.started]
    split
    · exact h
    · exact FaultBits.has_set_of_has _ h
  | destroy =>
    refine (releaseLine p p.cfgRst).trans ?_
    dsimp only [Panel.started]
    exact of_hist (List.prefix_append _ _)
  | setGap =>
    dsimp only [Panel.started]
    exact of_hist (List.prefix_append _ _)
  | _ =>
    dsimp only [Panel.started]
    exact of_hist List.prefix_rfl

end Panel.Continues

/-- An object that is there goes on in its place, or is set aside whole behind the others. -/
theorem ObjectsMove.continues {par : Params} {p q : Panel} {others others' : List Panel}
    (hm : ObjectsMove par p others q others') :
    others' = others ++ [p] ∨ others' = others ∧ (p.life ≠ .absent → q.Continues p) := by
  cases hm with
  | runs hq => exact .inr ⟨rfl, fun _ => .runs hq⟩
  | declines f => exact .inr ⟨rfl, fun _ => .setFault p f⟩
  | starts i => exact .inr ⟨rfl, fun _ => .started p i⟩
  | creates ha => exact .inr ⟨rfl, fun hne => absurd ha hne⟩
  | createsFresh => exact .inl rfl

/-- Settles O55: of the moves of the objects only a create on a live object and a turn to a fresh slot set the addressed
one aside, only the host's turn to another object exchanges two, and the rest add to histories, DIAG and faults. -/
theorem objectsKeepConfigurationHistoryAndFaults : Obligations.ObjectsKeepConfigurationHistoryAndFaults := by
  unfold Obligations.ObjectsKeepConfigurationHistoryAndFaults
  intro s t h
  obtain hm | ⟨a, hp, ho⟩ | ⟨k, rest, hi, rfl⟩ | ⟨-, ho⟩ := step_moves h
  · obtain ho | ⟨ho, hc⟩ := hm.continues
    · exact .inr (.inl ho)
    · exact .inr (.inr ⟨by rw [ho], hc, fun k p hk => ⟨p, ho ▸ hk, .refl p⟩⟩)
  · refine .inr (.inr ⟨by simp [ho], fun _ => hp ▸ .noteWrite _ a, fun k p hk => ⟨p.noteWrite a, ?_, .noteWrite p a⟩⟩)
    simp [ho, hk]
  · obtain ⟨q, hq, hp, ho⟩ | he := State.select_cases { s with inputs := rest } k
    · exact .inl ⟨k, rest, q, hi, hq, hp, ho⟩
    · rw [he]
      exact .inr (.inr ⟨rfl, fun _ => .refl _, fun k p hk => ⟨p, hk, .refl p⟩⟩)
  · exact .inr (.inl ho)

end Sys2Proof.Machine
end

section
/-! Who writes the shadow registers, the gaps and RESET_DONE (R23, R25 to R29, R34). -/

namespace Sys2Proof.Machine

open Config (Params)

/-- The registers of an object that only create and the FSM's own actions write. -/
structure Panel.RegistersKept (q p : Panel) : Prop where
  orient    : q.orient = p.orient
  colmodSh  : q.colmodSh = p.colmodSh
  bpp       : q.bpp = p.bpp
  resetDone : q.resetDone = p.resetDone

/-- The gaps stay as they were. -/
structure Panel.GapsKept (q p : Panel) : Prop where
  xGap : q.xGap = p.xGap
  yGap : q.yGap = p.yGap

/-! ### Requests and rows -/

theorem Panel.releaseLine_registersKept (p : Panel) (l : Option ResetLine) : (p.releaseLine l).RegistersKept p := by
  cases l <;> exact ⟨rfl, rfl, rfl, rfl⟩

theorem Panel.releaseLine_gapsKept (p : Panel) (l : Option ResetLine) : (p.releaseLine l).GapsKept p := by
  cases l <;> exact ⟨rfl, rfl⟩

theorem Panel.started_registersKept (p : Panel) (i : Instr) : (p.started i).RegistersKept p := by
  cases i with
  | destroy =>
    obtain ⟨ho, hc, hb, hd⟩ := p.releaseLine_registersKept p.cfgRst
    exact ⟨ho, hc, hb, hd⟩
  | _ => exact ⟨rfl, rfl, rfl, rfl⟩

/-- Of the requests only set_gap writes the gaps (R195). -/
theorem Panel.started_gapsKept_or (p : Panel) (i : Instr) :
    (p.started i).GapsKept p ∨ ∃ x y, i = .setGap x y ∧ (p.started i).xGap = x ∧ (p.started i).yGap = y := by
  cases i with
  | setGap x y => exact .inr ⟨x, y, rfl, rfl, rfl⟩
  | destroy =>
    obtain ⟨hx, hy⟩ := p.releaseLine_gapsKept p.cfgRst
    exact .inl ⟨hx, hy⟩
  | _ => exact .inl ⟨rfl, rfl⟩

theorem Panel.Emits.registersKept {par : Params} {p q : Panel} (h : p.Emits par q) : q.RegistersKept p := by
  cases h <;> exact ⟨rfl, rfl, rfl, rfl⟩

theorem Panel.Emits.gapsKept {par : Params} {p q : Panel} (h : p.Emits par q) : q.GapsKept p := by
  cases h <;> exact ⟨rfl, rfl⟩

/-- Any instruction but a create leaves these registers alone. -/
theorem exec_registersKept {s t : State} {i : Instr} (h : exec i s = .next t) :
    (∃ a l c b d, i = .create a l c b d) ∨ t.panel.RegistersKept s.panel := by
  obtain hc | ⟨f, -, rfl⟩ | ⟨-, -, -, rfl⟩ | ⟨q, hq, rfl⟩ := exec_cases h
  · exact .inl hc
  · exact .inr ⟨rfl, rfl, rfl, rfl⟩
  · exact .inr (s.panel.started_registersKept i)
  · exact .inr hq.registersKept

/-- Any instruction but a create and a set_gap leaves the gaps alone. -/
theorem exec_gapsKept {s t : State} {i : Instr} (h : exec i s = .next t) :
    (∃ a l c b d, i = .create a l c b d) ∨ (∃ x y, i = .setGap x y ∧ t.panel.xGap = x ∧ t.panel.yGap = y) ∨
    t.panel.GapsKept s.panel := by
  obtain hc | ⟨f, -, rfl⟩ | ⟨-, -, -, rfl⟩ | ⟨q, hq, rfl⟩ := exec_cases h
  · exact .inl hc
  · exact .inr (.inr ⟨rfl, rfl⟩)
  · exact .inr (s.panel.started_gapsKept_or i).symm
  · exact .inr (.inr hq.gapsKept)

/-! ### Actions -/

/-- No action writes BPP or the gaps. -/
theorem Panel.Acts.gapsKept {par : Params} {p q : Panel} (h : p.Acts par q) : q.GapsKept p := by
  cases h <;> constructor <;> simp [Panel.assertReset, Panel.deassertReset]

/-- ORIENT is written by an override of a MADCTL row and by the update of a mirror or swap_xy. -/
theorem Panel.Acts.orient_cases {par : Params} {p q : Panel} (h : p.Acts par q) :
    q.orient = p.orient ∨
    (p.fsm = .initRowCheck ∧ ∃ r v more, p.cfgTable[p.row]? = some r ∧ r.opcode = par.cmdMadctl ∧
      r.payload = v :: more ∧ q.orient = v) ∨
    ∃ c, p.fsm = .oriUpdate c ∧ q.orient = orientAfter par p.orient c := by
  cases h with
  | overrideMadctl r v more seen ops _ _ hf hr hop hp => exact .inr (.inl ⟨hf, r, v, more, hr, hop, hp, rfl⟩)
  | updateOrient c _ _ hf => exact .inr (.inr ⟨c, hf, rfl⟩)
  | _ => exact .inl (by simp [Panel.assertReset, Panel.deassertReset])

/-- COLMOD_SH is written by an override of a COLMOD row. -/
theorem Panel.Acts.colmodSh_cases {par : Params} {p q : Panel} (h : p.Acts par q) :
    q.colmodSh = p.colmodSh ∨
    (p.fsm = .initRowCheck ∧ ∃ r v more, p.cfgTable[p.row]? = some r ∧ r.opcode = par.cmdColmod ∧
      r.payload = v :: more ∧ q.colmodSh = v) := by
  cases h with
  | overrideColmod r v more seen ops _ _ hf hr hop hp => exact .inr ⟨hf, r, v, more, hr, hop, hp, rfl⟩
  | _ => exact .inl (by simp [Panel.assertReset, Panel.deassertReset])

/-- The end of a Wait sets RESET_DONE where it is the last hold of a reset, and ends the operation with OK. -/
theorem Panel.endHold_resetDone (p : Panel) (ms : Nat) :
    (p.endHold ms).resetDone = p.resetDone ∨
    ((p.fsm = .rstHold2 ∨ p.fsm = .rstSwhold) ∧ (p.endHold ms).resetDone = true ∧ (p.endHold ms).fsm = .idle ∧
      (p.endHold ms).hist = p.hist ++ [.waitEnd ms, .status .ok]) := by
  unfold Panel.endHold Panel.afterHold
  cases hf : p.fsm with
  | rstHold2 => exact .inr ⟨.inl rfl, rfl, rfl, by simp⟩
  | rstSwhold => exact .inr ⟨.inr rfl, rfl, rfl, by simp⟩
  | _ => exact .inl rfl

theorem Panel.Acts.resetDone_cases {par : Params} {p q : Panel} (h : p.Acts par q) :
    q.resetDone = p.resetDone ∨
    ((p.fsm = .rstHold2 ∨ p.fsm = .rstSwhold) ∧ q.resetDone = true ∧ q.fsm = .idle ∧
      ∃ ms, q.hist = p.hist ++ [.waitEnd ms, .status .ok]) := by
  cases h with
  | endHold ms =>
    obtain hk | ⟨hf, hd, hi, hh⟩ := p.endHold_resetDone ms
    · exact .inl hk
    · exact .inr ⟨hf, hd, hi, ms, hh⟩
  | _ => exact .inl (by simp [Panel.assertReset, Panel.deassertReset])

/-- A run that changes a register of the object does so by an action. -/
theorem Panel.Runs.registersKept_or_acts {par : Params} {p q : Panel} (h : p.Runs par q) :
    q.RegistersKept p ∨ p.Acts par q := by
  cases h with
  | stays => exact .inl ⟨rfl, rfl, rfl, rfl⟩
  | emits he => exact .inl he.registersKept
  | acts ha => exact .inr ha

theorem Panel.Runs.gapsKept {par : Params} {p q : Panel} (h : p.Runs par q) : q.GapsKept p := by
  cases h with
  | stays => exact ⟨rfl, rfl⟩
  | emits he => exact he.gapsKept
  | acts ha => exact ha.gapsKept

/-! ### The statements -/

/-- Settles O56: no request and no emitted row writes ORIENT, and of the FSM's actions only the override of a MADCTL row
and the update of a mirror or swap_xy do. -/
theorem onlyTheOrientationMuxWritesOrient : Obligations.OnlyTheOrientationMuxWritesOrient := by
  unfold Obligations.OnlyTheOrientationMuxWritesOrient
  refine ⟨fun s t i h hne => (exec_registersKept h).resolve_right fun hk => hne hk.orient,
    fun s t moves hi hr h hne => ?_⟩
  have ha := (step_runs hi hr h).registersKept_or_acts.resolve_left fun hk => hne hk.orient
  obtain hk | hrow | ⟨c, hf, ho⟩ := ha.orient_cases
  · exact absurd hk hne
  · exact .inl hrow
  · cases c with
    | mirror x y => exact .inr (.inl ⟨x, y, hf, ho⟩)
    | swap b => exact .inr (.inr ⟨b, hf, ho⟩)

/-- Settles O57: of the requests only set_gap writes the gaps and none writes BPP; no action of the FSM writes either. -/
theorem onlyCreateAndSetGapWriteBppAndGaps : Obligations.OnlyCreateAndSetGapWriteBppAndGaps := by
  unfold Obligations.OnlyCreateAndSetGapWriteBppAndGaps
  refine ⟨fun s t i h => ⟨fun hne => (exec_registersKept h).resolve_right fun hk => hne hk.bpp, fun hne => ?_⟩,
    fun s t moves hi hr h => ?_⟩
  · obtain hc | hg | hk := exec_gapsKept h
    · exact .inl hc
    · exact .inr hg
    · obtain hx | hy := hne
      · exact absurd hk.xGap hx
      · exact absurd hk.yGap hy
  · have hq := step_runs hi hr h
    exact ⟨(Panel.Continues.runs hq).bpp, hq.gapsKept.xGap, hq.gapsKept.yGap⟩

/-- Settles O58: no request and no emitted row writes COLMOD_SH, and of the FSM's actions only the override of a COLMOD
row does. -/
theorem onlyCreateAndOverridesWriteColmodSh : Obligations.OnlyCreateAndOverridesWriteColmodSh := by
  unfold Obligations.OnlyCreateAndOverridesWriteColmodSh
  refine ⟨fun s t i h hne => (exec_registersKept h).resolve_right fun hk => hne hk.colmodSh,
    fun s t moves hi hr h hne => ?_⟩
  have ha := (step_runs hi hr h).registersKept_or_acts.resolve_left fun hk => hne hk.colmodSh
  exact ha.colmodSh_cases.resolve_left hne

/-- Settles O59: no request and no emitted row writes RESET_DONE, and of the FSM's actions only the end of a reset's last
hold does. -/
theorem onlyACompletedResetSetsResetDone : Obligations.OnlyACompletedResetSetsResetDone := by
  unfold Obligations.OnlyACompletedResetSetsResetDone
  refine ⟨fun s t i h hne => (exec_registersKept h).resolve_right fun hk => hne hk.resetDone,
    fun s t moves hi hr h hne => ?_⟩
  have ha := (step_runs hi hr h).registersKept_or_acts.resolve_left fun hk => hne hk.resetDone
  exact ha.resetDone_cases.resolve_left hne

end Sys2Proof.Machine
end

section
/-! What one step runs, and the requests that are declined (R40, R80, R93, R238). -/

namespace Sys2Proof.Machine

/-- A record that decodes runs the instruction it spells. -/
theorem State.present_decoded {s : State} {record : List Byte} {i : Instr}
    (h : decode s.params .req record = .ok i) : s.present record = exec i s := by
  simp [State.present, h]

/-- In IDLE with nothing under way the foreground presents the first waiting record. -/
theorem State.foreground_fetches {s : State} {record : List Byte} {rest : List (List Byte)} (hf : s.panel.fsm = .idle)
    (hb : s.panel.bus = .free) (hh : s.panel.hold = none) (hr : s.reqs = record :: rest) :
    s.foreground = State.present { s with reqs := rest } record := by
  rw [s.foreground_action hb hh (by simp [Panel.commandRow, hf])]
  simp [State.fsmAction, hf, State.fetchRequest, hr]

/-- Settles O9: a listed request is presented as it stands, and a turn in IDLE presents the first one waiting. -/
theorem stepRunsThePresentedRequest : Obligations.StepRunsThePresentedRequest := by
  unfold Obligations.StepRunsThePresentedRequest
  refine ⟨fun s record rest i hi hd => ?_, fun s record rest moves i hi hf hb hh hr hd => ?_⟩
  · rw [step_input s _ rest hi]
    exact State.present_decoded hd
  · rw [step_turn s moves hi, State.foreground_fetches (s := { s with inputs := moves }) hf hb hh hr]
    exact State.present_decoded hd

/-- Settles O10: a turn, listed or the only move there is, runs the row the FSM emits. -/
theorem stepRunsTheRowTheFsmEmits : Obligations.StepRunsTheRowTheFsmEmits := by
  unfold Obligations.StepRunsTheRowTheFsmEmits
  refine ⟨fun s moves i hi hn => ?_, fun s i hi hp hn => ?_⟩
  · rw [step_turn s moves hi]
    exact State.foreground_row _ i hn
  · rw [step_unlisted s hi hp]
    exact State.foreground_row _ i hn

/-- Settles O14: every request but create is accepted by the one rule of R238, and a create at a destroyed object has the
same answer. -/
theorem requestAfterDestroyOnlySetsUseAfterDestroy : Obligations.RequestAfterDestroyOnlySetsUseAfterDestroy := by
  unfold Obligations.RequestAfterDestroyOnlySetsUseAfterDestroy
  refine ⟨fun s i hi hf hl => ?_, fun s t l co bpp tab hd hl => ?_⟩
  · rw [exec_request hi, s.accept_destroyed _ hl hf]
    rfl
  · show execCreate t l co bpp tab s = _
    rw [execCreate, if_pos hd, hl]
    rfl

end Sys2Proof.Machine
end

section
/-! Turns of the foreground that only move the addressed object, one after another (R30; log 3). -/

namespace Sys2Proof.Machine

/-- A turn of the foreground takes the object from `p` to `q` and moves nothing else, whatever surrounds it. -/
def Panel.TurnsTo (p q : Panel) : Prop := ∀ u : State, u.panel = p → u.foreground = .next { u with panel := q }

namespace Panel.TurnsTo

variable {p q : Panel}

theorem step (h : p.TurnsTo q) {s : State} {moves : List Input} (hi : s.turns 1 moves) :
    step { s with panel := p } = .next { s with inputs := moves, panel := q } :=
  (step_turn { s with panel := p } moves hi).trans (h _ rfl)

theorem run (h : p.TurnsTo q) (s : State) (k : Nat) (moves : List Input) :
    core.run (k + 1) { s with panel := p, inputs := List.replicate (k + 1) .turn ++ moves } =
      core.run k { s with panel := q, inputs := List.replicate k .turn ++ moves } :=
  core_run_next k (step_turn _ (List.replicate k .turn ++ moves) rfl |>.trans (h _ rfl))

theorem assertReset (hb : p.bus = .free) (hh : p.hold = none) (hf : p.fsm = .rstAssert) :
    p.TurnsTo p.assertReset := by
  rintro u rfl
  rw [u.foreground_action hb hh (by simp [Panel.commandRow, hf]), State.fsmAction, hf]
  rfl

theorem deassertReset (hb : p.bus = .free) (hh : p.hold = none) (hf : p.fsm = .rstDeassert) :
    p.TurnsTo p.deassertReset := by
  rintro u rfl
  rw [u.foreground_action hb hh (by simp [Panel.commandRow, hf]), State.fsmAction, hf]
  rfl

theorem startHold1 (hb : p.bus = .free) (hh : p.hold = none) (hf : p.fsm = .rstHold1) :
    p.TurnsTo (p.startHold Config.tRstAssertMs) := by
  rintro u rfl
  rw [u.foreground_action hb hh (by simp [Panel.commandRow, hf]), State.fsmAction, hf]
  rfl

theorem startHold2 (hb : p.bus = .free) (hh : p.hold = none) (hf : p.fsm = .rstHold2) :
    p.TurnsTo (p.startHold Config.tRstReleaseMs) := by
  rintro u rfl
  rw [u.foreground_action hb hh (by simp [Panel.commandRow, hf]), State.fsmAction, hf]
  rfl

theorem endHold {ms : Nat} (hb : p.bus = .free) (hh : p.hold = some ms) : p.TurnsTo (p.endHold ms) := by
  rintro u rfl
  exact u.foreground_hold ms hb hh

theorem checkDraw {r : DrawArgs} (hb : p.bus = .free) (hh : p.hold = none) (hf : p.fsm = .drawCheck r) :
    p.TurnsTo (p.checkDraw r) := by
  rintro u rfl
  rw [u.foreground_action hb hh (by simp [Panel.commandRow, hf]), State.fsmAction, hf]
  rfl

end Panel.TurnsTo

end Sys2Proof.Machine
end

section
/-! A draw from its request to its window (R190, R235). -/

namespace Sys2Proof.Machine

/-- A request other than create on a ready object starts its operation. -/
theorem exec_ready {s : State} (h : s.ready) {i : Instr} (hi : needsObject i = true) :
    exec i s = .next { s with panel := s.panel.started i } := by
  obtain ⟨hl, hf, -, -⟩ := h
  rw [exec_request hi, s.accept_live _ hl hf]
  rfl

/-- The turn after a draw request checks the rectangle (log 1). -/
theorem step_started_draw {s : State} (h : s.ready) {moves : List Input} (hi : s.turns 1 moves) (x0 y0 x1 y1 : Word)
    (buf : Nat) :
    step { s with panel := s.panel.started (.draw x0 y0 x1 y1 buf) } = .next { s with
      inputs := moves, panel := (s.panel.started (.draw x0 y0 x1 y1 buf)).checkDraw ⟨x0, y0, x1, y1, buf⟩ } := by
  obtain ⟨-, -, hb, hh⟩ := h
  exact (Panel.TurnsTo.checkDraw (p := s.panel.started (.draw x0 y0 x1 y1 buf)) hb hh rfl).step hi

/-- DRAW_CHECK after a draw request, by R190's window. -/
theorem Panel.checkDraw_started_of_some {p : Panel} {x0 y0 x1 y1 : Word} {buf : Nat} {w : Window}
    (h : windowOf p.bpp p.xGap p.yGap ⟨x0, y0, x1, y1, buf⟩ = some w) :
    (p.started (.draw x0 y0 x1 y1 buf)).checkDraw ⟨x0, y0, x1, y1, buf⟩ =
      { p with fsm := .drawCaset w, sendRaced := false } := by
  dsimp only [Panel.checkDraw, Panel.started]
  rw [h]

theorem Panel.checkDraw_started_of_none {p : Panel} {x0 y0 x1 y1 : Word} {buf : Nat}
    (h : windowOf p.bpp p.xGap p.yGap ⟨x0, y0, x1, y1, buf⟩ = none) :
    (p.started (.draw x0 y0 x1 y1 buf)).checkDraw ⟨x0, y0, x1, y1, buf⟩ =
      Panel.finish { p.setFault .contract with sendRaced := false } .contractViolation := by
  dsimp only [Panel.checkDraw, Panel.started]
  rw [h]
  rfl

/-- Settles O42: DRAW_CHECK takes the window R190 and R191 compute. -/
theorem drawComputesTheWindow : Obligations.DrawComputesTheWindow := by
  unfold Obligations.DrawComputesTheWindow
  intro s x0 y0 x1 y1 buf hs
  have accepted := exec_ready hs (i := .draw x0 y0 x1 y1 buf) rfl
  refine ⟨accepted, fun moves hi hx hy hxs hxe hys hye hn => ?_⟩
  obtain ⟨w, hw, hc⟩ := windowOf_of_meets (bpp := s.panel.bpp) (xGap := s.panel.xGap) (yGap := s.panel.yGap)
    (r := ⟨x0, y0, x1, y1, buf⟩) ⟨⟨hx, hy⟩, ⟨hxs, hxe, hys, hye⟩, hn⟩
  refine ⟨_, w, accepted, ?_, hc.xs, hc.xe, hc.ys, hc.ye, hc.buf, hc.pos, hc.n⟩
  rw [step_started_draw hs hi, Panel.checkDraw_started_of_some hw]

/-- Settles O43: while DRAW_CHECK is to run the object is busy, and a rectangle without a window ends the draw there. -/
theorem drawContractViolation : Obligations.DrawContractViolation := by
  unfold Obligations.DrawContractViolation
  intro s x0 y0 x1 y1 buf hs
  refine ⟨_, exec_ready hs rfl, fun i hi => ?_, fun moves hi hbroken => ?_⟩
  · rw [exec_request hi, State.accept_busy _ _ (by dsimp only [Panel.started]; nofun)]
    rfl
  · have hw : windowOf s.panel.bpp s.panel.xGap s.panel.yGap ⟨x0, y0, x1, y1, buf⟩ = none := by
      refine windowOf_of_not_meets fun ⟨hr, hg, hn⟩ => ?_
      obtain hbroken | hbroken | hbroken := hbroken
      · exact hbroken hr
      · exact hbroken hg
      · exact absurd hn (not_lt.2 hbroken)
    rw [step_started_draw hs hi, Panel.checkDraw_started_of_none hw]
    obtain ⟨-, hf, hb, hh⟩ := hs
    simp [Panel.finish, FaultBits.set, hf, hb, hh]

end Sys2Proof.Machine
end

section
/-! create from the environment's grants, and the hardware path of reset (R42, R130, R134, R136). -/

namespace Sys2Proof.Machine

/-- The supported arguments: RGB or BGR, in 16 or 18 bits (R81, R130). -/
theorem supportedConfig_supported (bgr wide : Bool) :
    supportedConfig (if bgr then 1 else 0) (if wide then 18 else 16) = some (bgr, if wide then .b24 else .b16) := by
  cases bgr <;> cases wide <;> rfl

theorem execCreate_absent {s : State} (hd : s.params.distinct) (hl : s.panel.life = .absent) (v : Option Variant)
    (l : Option ResetLine) (co bpp : Byte) (tab : Option (List InitRow)) :
    exec (.create v l co bpp tab) s = .next (s.createHere v l co bpp tab) := by
  show execCreate v l co bpp tab s = _
  rw [execCreate, if_pos hd, hl]

/-- With no line a create asks for the allocation alone. -/
theorem State.createHere_noLine {s : State} {rest : List Bool} (ha : s.answers = true :: rest) (v : Variant)
    (co bpp : Byte) (tab : Option (List InitRow)) :
    s.createHere (some v) none co bpp tab = State.configure { s with answers := rest } v none co bpp tab := by
  simp [State.createHere, s.ask_listed true rest ha, State.claimLine]

/-- With a line it asks for the allocation, then for the claim. -/
theorem State.createHere_line {s : State} {rest : List Bool} (ha : s.answers = true :: true :: rest) (v : Variant)
    (l : ResetLine) (co bpp : Byte) (tab : Option (List InitRow)) :
    s.createHere (some v) (some l) co bpp tab =
      State.configure { s with
        answers := rest
        panel := { s.panel with lineHeld := some l.gpio, hist := s.panel.hist ++ [.claim l.gpio true] } }
        v (some l) co bpp tab := by
  simp [State.createHere, s.ask_listed true _ ha, State.claimLine, State.onPanel,
    State.ask_listed { s with answers := true :: rest } true rest rfl]

/-- Settles O18: with the allocation granted, and the line where there is one, the writes of R130 are R42's values. -/
theorem createLeavesTheValuesOfR42 : Obligations.CreateLeavesTheValuesOfR42 := by
  unfold Obligations.CreateLeavesTheValuesOfR42
  refine ⟨fun s v bgr wide tab rest hd hl ha => ?_, fun s v l bgr wide tab level rest hd hl ha => ?_⟩
  · rw [execCreate_absent hd hl, State.createHere_noLine ha, State.configure, supportedConfig_supported]
    cases tab <;> cases wide <;> rfl
  · rw [execCreate_absent hd hl, State.createHere_line ha, State.configure, supportedConfig_supported]
    cases tab <;> cases wide <;>
      simp [State.freeLevel, State.ask, State.onPanel, Panel.construct, Panel.finish, FaultBits.none, Overrides.none,
        orientCreate, bitMask, colmodOf, Config.colmodRgb565, Config.colmodRgb666]

/-! ### The hardware path -/

/-- What RST_ASSERT and its hold make of an object with a line (R134, R136). -/
theorem Panel.assertPhase_eq {p : Panel} {l : ResetLine} (hr : p.cfgRst = some l) (hb : p.bus = .free)
    (hh : p.hold = none) :
    (p.assertReset.startHold 10).endHold 10 = { p with
      fsm := .rstDeassert, pin := l.activeHigh
      hist := p.hist ++ [.setReset true l.activeHigh, .waitStart 10, .waitEnd 10] } := by
  simp [Panel.endHold, Panel.afterHold, Panel.startHold, Panel.assertReset, Panel.setReset, hr, hb, hh]

/-- What RST_DEASSERT and its hold make of it (R134, R136, R137). -/
theorem Panel.deassertPhase_eq {p : Panel} {l : ResetLine} (hr : p.cfgRst = some l) (hb : p.bus = .free)
    (hh : p.hold = none) :
    (p.deassertReset.startHold 10).endHold 10 = { p with
      fsm := .idle, resetDone := true, pin := !l.activeHigh
      hist := p.hist ++ [.setReset false (!l.activeHigh), .waitStart 10, .waitEnd 10, .status .ok] } := by
  simp [Panel.endHold, Panel.afterHold, Panel.startHold, Panel.deassertReset, Panel.setReset, Panel.finish, hr, hb, hh]

/-- RST_ASSERT and RST_HOLD1 take three turns. -/
theorem run_assertPhase (s : State) {p : Panel} {l : ResetLine} (hr : p.cfgRst = some l) (hf : p.fsm = .rstAssert)
    (hb : p.bus = .free) (hh : p.hold = none) (k : Nat) (moves : List Input) :
    core.run (k + 3) { s with panel := p, inputs := List.replicate (k + 3) .turn ++ moves } =
      core.run k { s with
        inputs := List.replicate k .turn ++ moves
        panel := { p with
          fsm := .rstDeassert, pin := l.activeHigh
          hist := p.hist ++ [.setReset true l.activeHigh, .waitStart 10, .waitEnd 10] } } := by
  have drive := Panel.TurnsTo.assertReset hb hh hf
  have hold : p.assertReset.TurnsTo (p.assertReset.startHold 10) :=
    .startHold1 (by simpa [Panel.assertReset] using hb) (by simpa [Panel.assertReset] using hh) rfl
  have wake : (p.assertReset.startHold 10).TurnsTo ((p.assertReset.startHold 10).endHold 10) :=
    .endHold (by simpa [Panel.assertReset] using hb) rfl
  rw [drive.run s (k + 2) moves, hold.run s (k + 1) moves, wake.run s k moves, Panel.assertPhase_eq hr hb hh]

/-- RST_DEASSERT and RST_HOLD2 take three turns. -/
theorem run_deassertPhase (s : State) {p : Panel} {l : ResetLine} (hr : p.cfgRst = some l) (hf : p.fsm = .rstDeassert)
    (hb : p.bus = .free) (hh : p.hold = none) (k : Nat) (moves : List Input) :
    core.run (k + 3) { s with panel := p, inputs := List.replicate (k + 3) .turn ++ moves } =
      core.run k { s with
        inputs := List.replicate k .turn ++ moves
        panel := { p with
          fsm := .idle, resetDone := true, pin := !l.activeHigh
          hist := p.hist ++ [.setReset false (!l.activeHigh), .waitStart 10, .waitEnd 10, .status .ok] } } := by
  have drive := Panel.TurnsTo.deassertReset hb hh hf
  have hold : p.deassertReset.TurnsTo (p.deassertReset.startHold 10) :=
    .startHold2 (by simpa [Panel.deassertReset] using hb) (by simpa [Panel.deassertReset] using hh) rfl
  have wake : (p.deassertReset.startHold 10).TurnsTo ((p.deassertReset.startHold 10).endHold 10) :=
    .endHold (by simpa [Panel.deassertReset] using hb) rfl
  rw [drive.run s (k + 2) moves, hold.run s (k + 1) moves, wake.run s k moves, Panel.deassertPhase_eq hr hb hh]

/-- Settles O22: the line is driven active for a hold and inactive for another, then RESET_DONE is set. -/
theorem hardwareResetPath : Obligations.HardwareResetPath := by
  unfold Obligations.HardwareResetPath
  intro s l hs hr
  have accepted : exec .reset s = .next { s with panel := { s.panel with fsm := .rstAssert } } := by
    rw [exec_ready hs rfl]
    dsimp only [Panel.started]
    rw [hr]
    rfl
  refine ⟨accepted, fun moves hi => ⟨_, accepted, ?_⟩⟩
  obtain ⟨-, hf, hb, hh⟩ := hs
  have active := run_assertPhase s (p := { s.panel with fsm := .rstAssert }) hr rfl hb hh 3 moves
  rw [← hi] at active
  refine active.trans ((run_deassertPhase s (by exact hr) (by rfl) (by exact hb) (by exact hh) 0 moves).trans ?_)
  rw [core_run_zero]
  simp [hf]

end Sys2Proof.Machine
end

section
/-! A sending state, from the row it emits to its BUS_ACK (R72, R93, R110, R113; log 2). -/

namespace Sys2Proof.Machine

theorem Panel.nextRow_of_free {p : Panel} (hb : p.bus = .free) (hh : p.hold = none) : p.nextRow = p.commandRow := by
  simp [Panel.nextRow, hb, hh]

theorem Panel.nextRow_of_submitted {p : Panel} {x : Transaction} (hb : p.bus = .submitted x) :
    p.nextRow = some (transportRow p.cfgVariant x) := by
  simp [Panel.nextRow, hb]

/-- A state that sends a transaction emits a row (R93). -/
theorem Panel.commandRow_of_transaction {par : Config.Params} {p : Panel} {x : Transaction}
    (hx : p.transaction par = some x) : ∃ i, p.commandRow = some i := by
  unfold Panel.transaction at hx
  unfold Panel.commandRow
  cases hf : p.fsm with
  | initRowSend =>
    rw [hf] at hx
    obtain ⟨r, hr, -⟩ := Option.map_eq_some_iff.1 hx
    exact ⟨_, by rw [hr]; rfl⟩
  | rstSwreset | initSlpout | initPushMadctl | initPushColmod | drawCaset | drawRaset | drawRamwr | oriSend | cmdSend =>
    exact ⟨_, rfl⟩
  | _ => simp [hf] at hx

/-- The row of a sending state hands over the state's transaction. -/
theorem exec_commandRow_submits {s : State} {i : Instr} {x : Transaction} (hb : s.panel.bus = .free)
    (hh : s.panel.hold = none) (hi : s.panel.commandRow = some i) (hx : s.panel.transaction s.params = some x) :
    exec i s = .next { s with panel := { s.panel with bus := .submitted x } } := by
  obtain ⟨y, hy, he⟩ := exec_commandRow hi
  obtain rfl : y = x := Option.some.inj (hy.symm.trans hx)
  exact he.trans (s.submit_emitted i y ((Panel.nextRow_of_free hb hh).trans hi))

theorem State.foreground_submits {s : State} {x : Transaction} (hb : s.panel.bus = .free) (hh : s.panel.hold = none)
    (hx : s.panel.transaction s.params = some x) :
    s.foreground = .next { s with panel := { s.panel with bus := .submitted x } } := by
  obtain ⟨i, hi⟩ := Panel.commandRow_of_transaction hx
  rw [s.foreground_row i ((Panel.nextRow_of_free hb hh).trans hi)]
  exact exec_commandRow_submits hb hh hi hx

theorem State.foreground_transmits {s : State} {x : Transaction} (hb : s.panel.bus = .submitted x) :
    s.foreground = .next { s with panel := { s.panel with
      bus := .awaiting x, hist := s.panel.hist ++ [.bus (frame s.panel.cfgVariant x)] } } := by
  have hn := Panel.nextRow_of_submitted hb
  rw [s.foreground_row _ hn, exec_transportRow]
  exact s.transmit_emitted _ _ _ hn

theorem State.foreground_acknowledges {s : State} {x : Transaction} {ok : Bool} {rest : List Bool}
    (hb : s.panel.bus = .awaiting x) (hl : tooLong s.params x = false) (ha : s.answers = ok :: rest) :
    s.foreground = .next { s with answers := rest, panel := s.panel.acknowledge x ok } := by
  rw [s.foreground_awaiting x hb, s.answer_listed x ok rest hl ha]

/-- A turn of the foreground, at the head of a run. -/
theorem run_turn {s t : State} {k : Nat} {moves : List Input} (hi : s.turns (k + 1) moves)
    (h : State.foreground { s with inputs := List.replicate k .turn ++ moves } = .next t) :
    core.run (k + 1) s = core.run k t :=
  core_run_next k ((step_turn s _ hi).trans h)

/-- What the three turns of a sending state make of the object: its transaction is put on BUS, then answered. -/
def Panel.sent (p : Panel) (x : Transaction) (ok : Bool) : Panel :=
  Panel.acknowledge { p with bus := .awaiting x, hist := p.hist ++ [.bus (frame p.cfgVariant x)] } x ok

/-- A sending state takes three turns and one answer. -/
theorem run_sends {s : State} {x : Transaction} {ok : Bool} {rest : List Bool} {k : Nat} {moves : List Input}
    (hi : s.turns (k + 3) moves) (hb : s.panel.bus = .free) (hh : s.panel.hold = none)
    (hx : s.panel.transaction s.params = some x) (hl : tooLong s.params x = false) (ha : s.answers = ok :: rest) :
    core.run (k + 3) s = core.run k { s with
      inputs := List.replicate k .turn ++ moves, answers := rest, panel := s.panel.sent x ok } :=
  calc core.run (k + 3) s
    _ = core.run (k + 2) _ := run_turn hi (State.foreground_submits hb hh hx)
    _ = core.run (k + 1) _ := run_turn rfl (State.foreground_transmits rfl)
    _ = core.run k _ := run_turn rfl (State.foreground_acknowledges rfl hl ha)

@[simp] theorem Panel.accepted_hist (p : Panel) (x : Transaction) : (p.accepted x).hist = p.hist := by
  cases x <;> rfl

/-- A sending state adds its transaction and the BUS_ACK, and the status where the operation ends there. -/
theorem Panel.sent_ok_hist (p : Panel) (x : Transaction) :
    (p.sent x true).hist = p.hist ++ [.bus (frame p.cfgVariant x), .ack true] ∨
    (p.sent x true).hist = p.hist ++ [.bus (frame p.cfgVariant x), .ack true, .status .ok] := by
  simpa [Panel.sent, Panel.acknowledge] using Panel.afterOk_hist (Panel.accepted { p with
    bus := .free, hist := p.hist ++ [.bus (frame p.cfgVariant x), .ack true] } x)

end Sys2Proof.Machine
end

section
/-! Bus order (R71, R277), as it is read off a history (log 16). -/

namespace Sys2Proof.Machine

/-! ### A transaction in front of others -/

/-- A command has no data phase: its transfers are the same whatever the Transport delivers. -/
theorem BusTxn.wire_of_command {t : BusTxn} (h : t.isPixels = false) (d : List Byte) : t.wire d = t.wire [] := by
  cases t with
  | plainCmd | quadCmd => rfl
  | plainPix | quadPix => cases h

/-- What opens a transaction is on the bus before its data. -/
theorem BusTxn.wire_nil_prefix (t : BusTxn) (d : List Byte) : t.wire [] <+: t.wire d := by
  cases t with
  | plainCmd | quadCmd => exact List.prefix_rfl
  | plainPix | quadPix => simp [BusTxn.wire]

theorem busOrder_command {t : BusTxn} (h : t.isPixels = false) (ts : List BusTxn) (ds : List (List Byte)) :
    busOrder (t :: ts) ds = t.wire [] ++ busOrder ts ds := by
  cases t with
  | plainCmd | quadCmd => rfl
  | plainPix | quadPix => cases h

theorem busOrder_delivered {t : BusTxn} (h : t.isPixels = true) (ts : List BusTxn) (d : List Byte)
    (ds : List (List Byte)) : busOrder (t :: ts) (d :: ds) = t.wire d ++ busOrder ts ds := by
  cases t with
  | plainCmd | quadCmd => cases h
  | plainPix | quadPix => rfl

theorem busOrder_undelivered {t : BusTxn} (h : t.isPixels = true) (ts : List BusTxn) :
    busOrder (t :: ts) [] = t.wire [] := by
  cases t with
  | plainCmd | quadCmd => cases h
  | plainPix | quadPix => rfl

/-! ### Lists of transactions -/

theorem busOrder_singleton (t : BusTxn) (d : List Byte) : busOrder [t] [d] = t.wire d := by
  cases ht : t.isPixels with
  | false => rw [busOrder_command ht, t.wire_of_command ht d]; simp [busOrder]
  | true => rw [busOrder_delivered ht]; simp [busOrder]

/-- More transactions and more data only add to the bus. -/
theorem busOrder_prefix_append (ts us : List BusTxn) (ds es : List (List Byte)) :
    busOrder ts ds <+: busOrder (ts ++ us) (ds ++ es) := by
  induction ts generalizing ds with
  | nil => exact List.nil_prefix
  | cons t ts ih =>
    rw [List.cons_append]
    cases ht : t.isPixels with
    | false =>
      rw [busOrder_command ht, busOrder_command ht]
      exact (List.prefix_append_right_inj _).2 (ih ds)
    | true =>
      cases ds with
      | cons d ds =>
        rw [List.cons_append, busOrder_delivered ht, busOrder_delivered ht]
        exact (List.prefix_append_right_inj _).2 (ih ds)
      | nil =>
        rw [busOrder_undelivered ht, List.nil_append]
        cases es with
        | nil => rw [busOrder_undelivered ht]
        | cons e es =>
          rw [busOrder_delivered ht]
          exact (t.wire_nil_prefix e).trans (List.prefix_append _ _)

/-- With every data phase delivered the transactions are all on the bus, and later ones follow them. -/
theorem busOrder_append {ts : List BusTxn} {ds : List (List Byte)} (h : ts.countP (·.isPixels) = ds.length)
    (us : List BusTxn) (es : List (List Byte)) :
    busOrder (ts ++ us) (ds ++ es) = busOrder ts ds ++ busOrder us es := by
  induction ts generalizing ds with
  | nil =>
    obtain rfl : ds = [] := List.length_eq_zero_iff.1 h.symm
    rfl
  | cons t ts ih =>
    cases ht : t.isPixels with
    | false =>
      rw [List.countP_cons_of_neg (by simp [ht])] at h
      rw [List.cons_append, busOrder_command ht, busOrder_command ht, ih h, List.append_assoc]
    | true =>
      rw [List.countP_cons_of_pos ht] at h
      cases ds with
      | nil => cases h
      | cons d ds =>
        rw [List.cons_append, List.cons_append, busOrder_delivered ht, busOrder_delivered ht,
          ih (Nat.succ.inj h), List.append_assoc]

/-! ### The accepted transactions of a history -/

/-- The BUS_ACK an event is. -/
def Event.ack? : Event → Option Bool
  | .ack ok => some ok
  | _ => none

/-- The first BUS_ACK of a history. -/
def firstAck (h : List Event) : Option Bool := h.findSome? Event.ack?

theorem acceptedTxns_bus (t : BusTxn) (h : List Event) :
    acceptedTxns (.bus t :: h) = if firstAck h = some true then t :: acceptedTxns h else acceptedTxns h := by
  have first : firstAck h = (h.filterMap Event.ack?).head? := (List.head?_filterMap).symm
  rw [first]
  rfl

theorem firstAck_append_of_some {h : List Event} {ok : Bool} (ha : firstAck h = some ok) (k : List Event) :
    firstAck (h ++ k) = some ok := by
  rw [firstAck, List.findSome?_append, ← firstAck, ha, Option.some_or]

/-- Where nothing is answered, nothing is accepted. -/
theorem acceptedTxns_of_noAck {h : List Event} (ha : firstAck h = none) : acceptedTxns h = [] := by
  induction h with
  | nil => rfl
  | cons e h ih =>
    cases e with
    | bus t =>
      have later : firstAck h = none := ha
      rw [acceptedTxns_bus, later]
      exact ih later
    | ack ok => cases ha
    | _ => exact ih ha

/-- A transaction stays outstanding until it is answered. -/
theorem unanswered_of_noAck {h : List Event} (ha : firstAck h = none) : unanswered true h = true := by
  induction h with
  | nil => rfl
  | cons e h ih =>
    cases e with
    | ack ok => cases ha
    | _ => exact ih ha

/-- A history that grows only adds to the transactions accepted. -/
theorem acceptedTxns_prefix_append (h later : List Event) : acceptedTxns h <+: acceptedTxns (h ++ later) := by
  induction h with
  | nil => exact List.nil_prefix
  | cons e h ih =>
    cases e with
    | bus t =>
      rw [List.cons_append, acceptedTxns_bus, acceptedTxns_bus]
      cases ha : firstAck h with
      | none => simp [acceptedTxns_of_noAck ha]
      | some ok =>
        rw [firstAck_append_of_some ha]
        cases ok with
        | false => exact ih
        | true => exact (List.prefix_cons_inj t).2 ih
    | _ => exact ih

/-- Where every transaction is answered, what follows is accepted on its own. -/
theorem acceptedTxns_append {b : Bool} {h : List Event} (hu : unanswered b h = false) (k : List Event) :
    acceptedTxns (h ++ k) = acceptedTxns h ++ acceptedTxns k := by
  induction h generalizing b with
  | nil => rfl
  | cons e h ih =>
    cases e with
    | bus t =>
      rw [List.cons_append, acceptedTxns_bus, acceptedTxns_bus]
      cases ha : firstAck h with
      | none => exact absurd ((unanswered_of_noAck ha).symm.trans hu) (by decide)
      | some ok =>
        rw [firstAck_append_of_some ha]
        cases ok with
        | false => exact ih hu
        | true => exact congrArg (t :: ·) (ih hu)
    | _ => exact ih hu

theorem busStream_prefix_append (h later : List Event) : busStream h <+: busStream (h ++ later) := by
  obtain ⟨us, hus⟩ := acceptedTxns_prefix_append h later
  unfold busStream
  rw [← hus, dataPhases_append]
  exact busOrder_prefix_append _ us _ _

/-- An acknowledged transaction is one more accepted, and no data phase. -/
theorem Panel.sent_ok_order {p : Panel} (hu : unanswered false p.hist = false) (x : Transaction) :
    acceptedTxns (p.sent x true).hist = acceptedTxns p.hist ++ [frame p.cfgVariant x] ∧
      dataPhases (p.sent x true).hist = dataPhases p.hist := by
  obtain h | h := p.sent_ok_hist x <;> rw [h, acceptedTxns_append hu, dataPhases_append] <;>
    exact ⟨rfl, List.append_nil _⟩

/-- Settles O8: on the bus by induction on the transactions, over a history by induction on its events, and in the
machine by the three turns of a sending state. -/
theorem busOrderIsIssueOrder : Obligations.BusOrderIsIssueOrder := by
  unfold Obligations.BusOrderIsIssueOrder
  refine ⟨busOrder_singleton, fun ts us ds => ?_, fun ts us ds es h => busOrder_append h us es,
    busStream_prefix_append, fun s x rest moves hi hb hh hx hl hu ha => ?_⟩
  · simpa using busOrder_prefix_append ts us ds []
  · exact ⟨_, run_sends (k := 0) hi hb hh hx hl ha, s.panel.sent_ok_order hu x⟩

end Sys2Proof.Machine
end

section
/-! Host memory as a transfer reads it, and who writes it (R63, R64, R74, R85). -/

namespace Sys2Proof.Machine

/-- A buffer is its first byte and the rest. -/
theorem Memory.readMany_succ_eq_some {m : Memory} {buf n : Nat} {bytes : List Byte} :
    m.readMany buf (n + 1) = some bytes ↔
      ∃ b bs, m.read buf = some b ∧ m.readMany (buf + 1) n = some bs ∧ bytes = b :: bs := by
  rw [Memory.readMany]
  cases m.read buf <;> cases m.readMany (buf + 1) n <;> simp [eq_comm]

/-- A buffer is short where its first byte is missing or the rest is short. -/
theorem Memory.readMany_succ_eq_none {m : Memory} {buf n : Nat} :
    m.readMany buf (n + 1) = none ↔ m.read buf = none ∨ m.readMany (buf + 1) n = none := by
  rw [Memory.readMany]
  cases m.read buf <;> cases m.readMany (buf + 1) n <;> simp

theorem Memory.readMany_length {m : Memory} {buf n : Nat} {bytes : List Byte} (h : m.readMany buf n = some bytes) :
    bytes.length = n := by
  induction n generalizing buf bytes with
  | zero => cases h; rfl
  | succ n ih =>
    obtain ⟨b, bs, -, hbs, rfl⟩ := Memory.readMany_succ_eq_some.1 h
    simp [ih hbs]

theorem Memory.read_of_readMany {m : Memory} {buf n : Nat} {bytes : List Byte} (h : m.readMany buf n = some bytes)
    {k : Nat} (hk : k < n) : m.read (buf + k) = bytes[k]? := by
  induction n generalizing buf bytes k with
  | zero => exact absurd hk (Nat.not_lt_zero k)
  | succ n ih =>
    obtain ⟨b, bs, hb, hbs, rfl⟩ := Memory.readMany_succ_eq_some.1 h
    cases k with
    | zero => exact hb
    | succ k =>
      rw [List.getElem?_cons_succ, ← ih hbs (Nat.lt_of_succ_lt_succ hk), Nat.add_right_comm, Nat.add_assoc]

/-- A short buffer lacks one of its bytes. -/
theorem Memory.read_eq_none_of_readMany {m : Memory} {buf n : Nat} (h : m.readMany buf n = none) :
    ∃ k, k < n ∧ m.read (buf + k) = none := by
  induction n generalizing buf with
  | zero => cases h
  | succ n ih =>
    obtain hb | hbs := Memory.readMany_succ_eq_none.1 h
    · exact ⟨0, Nat.succ_pos n, hb⟩
    · obtain ⟨k, hk, hr⟩ := ih hbs
      exact ⟨k + 1, Nat.succ_lt_succ hk, by rwa [Nat.add_right_comm, Nat.add_assoc] at hr⟩

/-- Settles O39: by induction on the length, the buffer being its first byte and the rest. -/
theorem pixelBytesAreTheBufferInOrder : Obligations.PixelBytesAreTheBufferInOrder := by
  unfold Obligations.PixelBytesAreTheBufferInOrder
  exact fun m buf n => ⟨fun bytes h => ⟨Memory.readMany_length h, fun k hk => Memory.read_of_readMany h hk⟩,
    Memory.read_eq_none_of_readMany⟩

/-- Settles O41: of every way a step can move, a host write alone does not keep host memory. -/
theorem onlyTheHostWritesItsMemory : Obligations.OnlyTheHostWritesItsMemory := by
  unfold Obligations.OnlyTheHostWritesItsMemory
  intro s t hwrite h
  obtain hk | ⟨a, b, rest, hi, -⟩ | ⟨k, rest, -, rfl⟩ := step_restKept_or h
  · exact hk.mem
  · exact absurd hi (hwrite a b rest)
  · exact State.select_mem _ k

/-! ### Host writes (R74, R76) -/

/-- A host write as one update of the fault and the marks: each is set by whether a buffer holds the address, so that an
object with no such buffer is left as it was. -/
theorem Panel.noteWrite_eq (p : Panel) (a : Nat) :
    p.noteWrite a = { p with
      faults := { p.faults with
        bufferRace := p.faults.bufferRace || p.pending.any (·.covers a) || p.drawCovers a }
      pending := p.pending.map fun e => { e with raced := e.raced || e.covers a }
      sendRaced := p.sendRaced || (p.sending && p.drawCovers a) } := by
  have marked : (fun e : Pending => if e.covers a then { e with raced := true } else e) =
      fun e => { e with raced := e.raced || e.covers a } := by
    funext e
    cases hc : e.covers a <;> simp
  unfold Panel.noteWrite
  rw [marked]
  split
  · rename_i hrace
    simp [Panel.setFault, FaultBits.set, Bool.or_assoc, hrace]
  · rename_i hnone
    rw [Bool.or_eq_true, not_or, Bool.not_eq_true, Bool.not_eq_true] at hnone
    obtain ⟨hpending, hdraw⟩ := hnone
    have unmarked : p.pending.map (fun e => { e with raced := e.raced || e.covers a }) = p.pending :=
      (List.map_congr_left (g := id) fun e he => by simp [List.any_eq_false.1 hpending e he]).trans (List.map_id _)
    simp [hpending, hdraw, unmarked]

/-- In the states of a draw with a window the buffer is the window's. -/
theorem Panel.drawBuffer_of_window {p : Panel} {w : Window}
    (h : p.fsm = .drawCaset w ∨ p.fsm = .drawRaset w ∨ p.fsm = .drawRamwr w ∨
      ∃ r, p.fsm = .drawCheck r ∧ windowOf p.bpp p.xGap p.yGap r = some w) :
    p.drawBuffer = some ⟨w.buf, w.n, false⟩ := by
  unfold Panel.drawBuffer
  obtain hf | hf | hf | ⟨r, hf, hw⟩ := h
  · rw [hf]
  · rw [hf]
  · rw [hf]
  · simp [hf, hw]

/-- Settles O40: a step of the host's writes the byte and notes the write at every object. -/
theorem hostWriteIntoAPendingBufferIsARace : Obligations.HostWriteIntoAPendingBufferIsARace := by
  unfold Obligations.HostWriteIntoAPendingBufferIsARace
  refine ⟨fun s a b moves hi => ?_, fun p w h => Panel.drawBuffer_of_window h⟩
  rw [step_input s _ moves hi]
  simp only [State.deliver, State.hostWrite, Panel.noteWrite_eq]
  rfl

/-! ### Completions (R115, R193) -/

/-- A buffer the host left alone is delivered as it stands. -/
theorem State.complete_filled {s : State} {buf n : Nat} {later : List Pending} {bytes : List Byte}
    (hp : s.panel.pending = ⟨buf, n, false⟩ :: later) (hb : Memory.readMany s.mem buf n = some bytes) :
    s.complete = .next { s with
      panel := { s.panel with pending := later, hist := s.panel.hist ++ [.pixels buf bytes] } } := by
  simp [State.complete, hp, hb, State.onPanel]

theorem State.complete_short {s : State} {buf n : Nat} {later : List Pending}
    (hp : s.panel.pending = ⟨buf, n, false⟩ :: later) (hb : Memory.readMany s.mem buf n = none) :
    s.complete = .refused .bufferTooShort := by
  simp [State.complete, hp, hb]

/-- A raced buffer is delivered as free bytes (log 12). -/
theorem State.complete_raced {s : State} {buf n : Nat} {later : List Pending}
    (hp : s.panel.pending = ⟨buf, n, true⟩ :: later) :
    s.complete = .next { s with
      panel := { s.panel with
        pending := later
        hist := s.panel.hist ++ [.pixels buf ((List.range n).map fun k => Config.racedByte (s.draws + k))] }
      draws := s.draws + n } := by
  simp [State.complete, hp]

/-- Settles O38: by the mark of the oldest entry, and by whether its buffer is filled. -/
theorem completionDeliversTheOldestTransfer : Obligations.CompletionDeliversTheOldestTransfer := by
  unfold Obligations.CompletionDeliversTheOldestTransfer
  refine ⟨fun s buf n later moves hi hp => ?_, fun s buf n later moves hi hp => ?_⟩
  · rw [step_input s _ moves hi]
    exact ⟨fun bytes hb => State.complete_filled (s := { s with inputs := moves }) hp hb,
      fun hb => State.complete_short (s := { s with inputs := moves }) hp hb⟩
  · rw [step_input s _ moves hi]
    exact ⟨_, _, by simp, State.complete_raced (s := { s with inputs := moves }) hp⟩

end Sys2Proof.Machine
end

section
/-! What the controller emits, and its form on the wire (R61, R62, R69, R84 to R90, R190). -/

namespace Sys2Proof

theorem addressWord_toNat (tag op8 : Byte) :
    (addressWord tag op8).toNat = tag.toNat * 2 ^ 24 + op8.toNat * 2 ^ 8 := by
  have htag := tag.isLt
  have hop := op8.isLt
  have disjoint := Nat.shiftLeft_add_eq_or_of_lt (i := 24) (b := op8.toNat <<< 8) (by omega) tag.toNat
  simp only [addressWord, BitVec.toNat_or, BitVec.toNat_shiftLeft, BitVec.toNat_setWidth]
  rw [Nat.mod_eq_of_lt (a := tag.toNat) (by omega), Nat.mod_eq_of_lt (a := op8.toNat) (by omega),
    Nat.mod_eq_of_lt (by omega), Nat.mod_eq_of_lt (by omega), ← disjoint, Nat.shiftLeft_eq, Nat.shiftLeft_eq]

/-- R86's word on the wire (R62, D21): the tag first, the command byte third. -/
theorem wordBytes_addressWord (tag op8 : Byte) : wordBytes (addressWord tag op8) = [tag, 0x00, op8, 0x00] := by
  have htag := tag.isLt
  have hop := op8.isLt
  have field (k : Nat) (b : Byte) (hk : (tag.toNat * 2 ^ 24 + op8.toNat * 2 ^ 8) / 2 ^ k % 2 ^ 8 = b.toNat) :
      (addressWord tag op8).extractLsb' k 8 = b :=
    BitVec.eq_of_toNat_eq (by rw [BitVec.extractLsb'_toNat, addressWord_toNat, Nat.shiftRight_eq_div_pow, hk])
  rw [wordBytes, field 24 tag (by omega), field 16 0x00 (by simp; omega), field 8 op8 (by omega),
    field 0 0x00 (by simp; omega)]

end Sys2Proof

namespace Sys2Proof.Machine

/-- Settles O7: under QuadAddressed the opening bytes are those of R86's word with the tag of the transaction. -/
theorem wireFormOfTransactions : Obligations.WireFormOfTransactions := by
  unfold Obligations.WireFormOfTransactions
  intro op8 payload data buf n
  refine ⟨rfl, rfl, ?_, ?_⟩ <;> rw [frame, BusTxn.wire, wordBytes_addressWord] <;> rfl

/-- The window of a draw as R61's two big-endian pairs. -/
theorem winPayload_eq (s e : Half) :
    winPayload s e = [(s >>> 8).setWidth 8, s.setWidth 8, (e >>> 8).setWidth 8, e.setWidth 8] := by
  have high (v : Half) : v.extractLsb' 8 8 = (v >>> 8).setWidth 8 := BitVec.eq_of_toNat_eq (by simp)
  have low (v : Half) : v.extractLsb' 0 8 = v.setWidth 8 := BitVec.eq_of_toNat_eq (by simp)
  simp only [winPayload, high, low]

/-- Settles O31: each row of a draw hands over the transaction of its state. -/
theorem windowCommands : Obligations.WindowCommands := by
  unfold Obligations.WindowCommands
  intro s w hb hh
  simp only [← winPayload_eq]
  refine ⟨?_, ?_, ?_⟩ <;> intro hf <;>
    exact exec_commandRow_submits hb hh (by rw [Panel.commandRow, hf]) (by rw [Panel.transaction, hf])

theorem transportRow_ne_qspiRead (v : Variant) (x : Transaction) (low : BitVec 24) :
    transportRow v x ≠ .qspiRead low := by
  cases v <;> cases x <;> nofun

theorem BinaryCmd.row_ne_qspiRead (c : BinaryCmd) (low : BitVec 24) : c.row ≠ .qspiRead low := by
  cases c <;> nofun

theorem Panel.commandRow_ne_qspiRead (p : Panel) (low : BitVec 24) : p.commandRow ≠ some (.qspiRead low) := by
  unfold Panel.commandRow
  cases hf : p.fsm with
  | initRowSend => simp
  | cmdSend c => simpa using c.row_ne_qspiRead low
  | _ => nofun

theorem Panel.nextRow_ne_qspiRead (p : Panel) (low : BitVec 24) : p.nextRow ≠ some (.qspiRead low) := by
  cases hb : p.bus with
  | submitted x =>
    rw [Panel.nextRow_of_submitted hb]
    exact fun h => transportRow_ne_qspiRead _ _ low (Option.some.inj h)
  | awaiting x => simp [Panel.nextRow, hb]
  | free =>
    cases hh : p.hold with
    | some ms => simp [Panel.nextRow, hb, hh]
    | none =>
      rw [Panel.nextRow_of_free hb hh]
      exact p.commandRow_ne_qspiRead low

/-- Settles O17: the read word's meaning is a refusal, and no row of a state or a transport is the read word's. -/
theorem theReadWordIsNeverEmitted : Obligations.TheReadWordIsNeverEmitted := by
  unfold Obligations.TheReadWordIsNeverEmitted
  exact ⟨fun _ _ => rfl, Panel.nextRow_ne_qspiRead⟩

end Sys2Proof.Machine
end

section
/-! Every record the encoder writes is read back as the instruction it spells (R80, R81, R84 to R88, R93). -/

namespace Sys2Proof

open Config (Params)

/-- A reader that leaves whatever follows its operands leaves nothing of a record that ends with them. -/
theorem read_to_end {α : Type} {get : List Byte → Read α} {bs : List Byte} {a : α}
    (h : ∀ rest, get (bs ++ rest) = .ok (a, rest)) : get bs = .ok (a, []) := by
  simpa using h []

theorem decode_of_front {par : Params} {f : Format} {bs : List Byte} {i : Instr}
    (h : decodeFront par f bs = .ok (i, [])) : decode par f bs = .ok i := by
  simp [decode, h]

/-! ### The operands of a record, whatever follows them -/

theorem getCreate_put (t : Option Variant) (l : Option ResetLine) (co bpp : Byte) (tab : Option (List InitRow))
    (rest : List Byte) :
    getCreate (putTransport t ++ putResetLine l ++ [co, bpp] ++ putTable tab ++ rest) =
      .ok (.create t l co bpp tab, rest) := by
  simp [getCreate]

theorem getDraw_put (xs ys xe ye : Word) (buf : Nat) (rest : List Byte) :
    getDraw (putWord xs ++ putWord ys ++ putWord xe ++ putWord ye ++ putNat buf ++ rest) =
      .ok (.draw xs ys xe ye buf, rest) := by
  simp [getDraw]

theorem getMirror_put (x y : Bool) (rest : List Byte) :
    getMirror (putBool x ++ putBool y ++ rest) = .ok (.mirror x y, rest) := by
  simp [getMirror]

theorem getFlag_put (mk : Bool → Instr) (b : Bool) (rest : List Byte) :
    getFlag mk (putBool b ++ rest) = .ok (mk b, rest) := by
  simp [getFlag]

theorem getSetGap_put (x y : Word) (rest : List Byte) :
    getSetGap (putWord x ++ putWord y ++ rest) = .ok (.setGap x y, rest) := by
  simp [getSetGap]

theorem getCaset_put (xs xe : Half) (rest : List Byte) :
    getCaset (putHalf xs ++ putHalf xe ++ rest) = .ok (.caset xs xe, rest) := by
  simp [getCaset]

theorem getRaset_put (ys ye : Half) (rest : List Byte) :
    getRaset (putHalf ys ++ putHalf ye ++ rest) = .ok (.raset ys ye, rest) := by
  simp [getRaset]

theorem getRamwr_put {buf n : Nat} (hn : n < 2 ^ Config.lenBits) (rest : List Byte) :
    getRamwr (putPixels buf n ++ rest) = .ok (.ramwr buf n, rest) := by
  simp [getRamwr, hn]

/-! ### Requests (R80 to R82) -/

/-- The op byte of a request is its op code in bits 3:0 (R80). -/
theorem getRequest_op (op : BitVec 4) (bs : List Byte) : getRequest ((0#4 ++ op) :: bs) = getArgs op bs := by
  have high : (0#4 ++ op : Byte).extractLsb' 4 4 = 0#4 := by revert op; decide
  have low : (0#4 ++ op : Byte).extractLsb' 0 4 = op := by revert op; decide
  rw [getRequest, high, low]
  exact if_pos rfl

theorem getRequest_reqInvalid (low : BitVec 1) :
    getRequest [0b0000101#7 ++ low] = .ok (.reqInvalid low, []) := by
  revert low; decide

theorem getRequest_reqInvalidHi (low : BitVec 2) :
    getRequest [0b000011#6 ++ low] = .ok (.reqInvalidHi low, []) := by
  revert low; decide

theorem getRequest_encode (par : Params) {i : Instr} (hf : i.format = .req) :
    getRequest (encode par i) = .ok (i, []) := by
  cases i with
  | create t l co bpp tab => exact (getRequest_op 0 _).trans (read_to_end (getCreate_put t l co bpp tab))
  | reset => exact getRequest_op 1 []
  | init => exact getRequest_op 2 []
  | draw xs ys xe ye buf => exact (getRequest_op 3 _).trans (read_to_end (getDraw_put xs ys xe ye buf))
  | mirror x y => exact (getRequest_op 4 _).trans (read_to_end (getMirror_put x y))
  | swapXy b => exact (getRequest_op 5 _).trans (read_to_end (getFlag_put .swapXy b))
  | invertColor on => exact (getRequest_op 6 _).trans (read_to_end (getFlag_put .invertColor on))
  | displayOnOff on => exact (getRequest_op 7 _).trans (read_to_end (getFlag_put .displayOnOff on))
  | setGap x y => exact (getRequest_op 8 _).trans (read_to_end (getSetGap_put x y))
  | destroy => exact getRequest_op 9 []
  | reqInvalid low => exact getRequest_reqInvalid low
  | reqInvalidHi low => exact getRequest_reqInvalidHi low
  | _ => cases hf

/-! ### Transactions (R84 to R88) -/

theorem getPixels_put {buf n : Nat} (hn : n < 2 ^ Config.lenBits) :
    getPixels (putPixels buf n) = .ok ((buf, n), []) :=
  read_to_end (getPixels_putPixels buf n hn)

theorem getQuad_command (op : Byte) (payload : List Byte) :
    getQuad (wordBytes (addressWord Config.qspiOpWrite op) ++ payload) = .ok (.sendCommandQuad op payload, []) := by
  rw [wordBytes_addressWord]
  rfl

theorem getQuad_pixels (op : Byte) {buf n : Nat} (hn : n < 2 ^ Config.lenBits) :
    getQuad (wordBytes (addressWord Config.qspiOpColor op) ++ putPixels buf n) =
      .ok (.sendPixelsQuad op buf n, []) := by
  rw [wordBytes_addressWord]
  simp [getQuad, getPixels_put hn, Config.qspiOpColor, Config.qspiOpRead, Config.qspiOpWrite]

/-- A read word opens with the read tag, and its operand is the other three bytes (R69, R86). -/
theorem getQuad_read (low : BitVec 24) :
    getQuad (wordBytes (Config.qspiOpRead ++ low)) = .ok (.qspiRead low, []) := by
  have operand (a : Word) : (a.extractLsb' 16 8 ++ a.extractLsb' 8 8 ++ a.extractLsb' 0 8 : BitVec 24) =
      a.extractLsb' 0 24 := by
    rw [BitVec.extractLsb'_append_extractLsb'_eq_extractLsb' (by rfl),
      BitVec.extractLsb'_append_extractLsb'_eq_extractLsb' (by rfl)]
  have low_bits : (Config.qspiOpRead ++ low : Word).extractLsb' 0 24 = low := BitVec.extractLsb'_append_eq_right
  have tag : (Config.qspiOpRead ++ low : Word).extractLsb' 24 8 = Config.qspiOpRead := BitVec.extractLsb'_append_eq_left
  rw [wordBytes, getQuad, if_pos tag, operand, low_bits]

theorem getPlainPix_put (op : Byte) {buf n : Nat} (hn : n < 2 ^ Config.lenBits) :
    getPlainPix (op :: putPixels buf n) = .ok (.sendPixelsPlain op buf n, []) := by
  simp [getPlainPix, getPixels_put hn]

/-! ### Command bytes (R93, R94) -/

/-- With R94's distinct command bytes the first test a command byte passes is its own. -/
theorem getCommand_encode {par : Params} (hd : par.distinct) {i : Instr} (hf : i.format = .busCmd) (hw : i.wf = true) :
    getCommand par (encode par i) = .ok (i, []) := by
  have later_ne_earlier := List.nodup_reverse.2 hd
  simp only [Params.commands, List.reverse_cons, List.reverse_nil, List.nil_append, List.cons_append,
    List.nodup_cons, List.mem_cons, List.not_mem_nil, or_false, not_or] at later_ne_earlier
  cases i with
  | swreset | slpout | invoff | invon | dispoff | dispon | madctl | colmod =>
    simp [encode, getCommand, later_ne_earlier]
  | caset xs xe => simp [encode, getCommand, later_ne_earlier, read_to_end (getCaset_put xs xe)]
  | raset ys ye => simp [encode, getCommand, later_ne_earlier, read_to_end (getRaset_put ys ye)]
  | ramwr buf n =>
    simp [encode, getCommand, later_ne_earlier, read_to_end (getRamwr_put (of_decide_eq_true hw))]
  | _ => cases hf

/-- Settles O1: format by format, the reader of the record's opening and then the readers of its operands. -/
theorem everyInstructionDecodesAsEncoded : Obligations.EveryInstructionDecodesAsEncoded := by
  unfold Obligations.EveryInstructionDecodesAsEncoded
  intro par i hd hw
  refine decode_of_front ?_
  cases hf : i.format with
  | req => exact getRequest_encode par hf
  | busCmd => exact getCommand_encode hd hf hw
  | quadWord =>
    cases i with
    | sendCommandQuad op payload => exact getQuad_command op payload
    | sendPixelsQuad op buf n => exact getQuad_pixels op (of_decide_eq_true hw)
    | qspiRead low => exact getQuad_read low
    | _ => cases hf
  | plainCmd =>
    cases i with
    | sendCommandPlain op payload => rfl
    | _ => cases hf
  | plainPix =>
    cases i with
    | sendPixelsPlain op buf n => exact getPlainPix_put op (of_decide_eq_true hw)
    | _ => cases hf
  | tableRow =>
    cases i with
    | vendorRow op payload => rfl
    | _ => cases hf

end Sys2Proof
end

section
/-! What the decoder accepts and what it refuses (R80, R86, R89, R93, R113). -/

namespace Sys2Proof

open Config (Params)

/-- A reader after another answers only where both do. -/
theorem andThen_cases {α β : Type} {r : Read α} {k : α → List Byte → Read β} {x : β × List Byte}
    (h : andThen r k = .ok x) : ∃ a bs, r = .ok (a, bs) ∧ k a bs = .ok x := by
  cases r with
  | error e => cases h
  | ok p => exact ⟨p.1, p.2, rfl, h⟩

/-- Whatever a reader answers is well-formed and of the format `f`. -/
def Yields (f : Format) (r : Read Instr) : Prop := ∀ i rest, r = .ok (i, rest) → i.wf = true ∧ i.format = f

namespace Yields

variable {f : Format}

theorem ok {i : Instr} {rest : List Byte} (hw : i.wf = true) (hf : i.format = f) : Yields f (.ok (i, rest)) := by
  rintro _ _ ⟨⟩
  exact ⟨hw, hf⟩

theorem error {e : DecodeError} : Yields f (.error e) := nofun

theorem andThen {α : Type} {r : Read α} {k : α → List Byte → Read Instr}
    (h : ∀ a bs, r = .ok (a, bs) → Yields f (k a bs)) : Yields f (andThen r k) := by
  intro i rest hi
  obtain ⟨a, bs, hr, hk⟩ := andThen_cases hi
  exact h a bs hr i rest hk

theorem ite {c : Prop} [Decidable c] {r r' : Read Instr} (h : Yields f r) (h' : Yields f r') :
    Yields f (if c then r else r') := by
  split
  · exact h
  · exact h'

end Yields

/-! ### Well-formedness (R113) -/

/-- The byte count of a pixel descriptor that is read fits `LEN_BITS` (R113). -/
theorem getPixels_fits {bs rest : List Byte} {buf n : Nat} (h : getPixels bs = .ok ((buf, n), rest)) :
    n < 2 ^ Config.lenBits := by
  obtain ⟨_, _, -, h⟩ := andThen_cases h
  obtain ⟨_, _, -, h⟩ := andThen_cases h
  split at h
  · cases h; assumption
  · cases h

theorem getCreate_yields (bs : List Byte) : Yields .req (getCreate bs) :=
  .andThen fun _ _ _ => .andThen fun _ _ _ => .andThen fun _ _ _ => .andThen fun _ _ _ => .andThen fun _ _ _ =>
    .ok rfl rfl

theorem getDraw_yields (bs : List Byte) : Yields .req (getDraw bs) :=
  .andThen fun _ _ _ => .andThen fun _ _ _ => .andThen fun _ _ _ => .andThen fun _ _ _ => .andThen fun _ _ _ =>
    .ok rfl rfl

theorem getFlag_yields {mk : Bool → Instr} (hw : ∀ b, (mk b).wf = true) (hf : ∀ b, (mk b).format = .req)
    (bs : List Byte) : Yields .req (getFlag mk bs) :=
  .andThen fun b _ _ => .ok (hw b) (hf b)

/-- The codes that spell no operation are read as rows of their own (R82). -/
theorem getArgs_yields (op : BitVec 4) (bs : List Byte) : Yields .req (getArgs op bs) := by
  unfold getArgs
  split
  case h_1 => exact getCreate_yields bs
  case h_4 => exact getDraw_yields bs
  case h_5 | h_9 => exact .andThen fun _ _ _ => .andThen fun _ _ _ => .ok rfl rfl
  case h_6 | h_7 | h_8 => exact getFlag_yields (fun _ => rfl) (fun _ => rfl) bs
  case h_2 | h_3 | h_10 | h_11 | h_12 | h_13 => exact .ok rfl rfl

theorem getRequest_yields : ∀ bs : List Byte, Yields .req (getRequest bs)
  | [] => .error
  | _ :: bs => .ite (getArgs_yields _ bs) .error

theorem getQuad_yields (bs : List Byte) : Yields .quadWord (getQuad bs) := by
  unfold getQuad
  split
  · refine .ite (.ok rfl rfl) (.ite (.ite (.ok rfl rfl) (.ite ?_ .error)) .error)
    split
    · exact .ok (decide_eq_true (getPixels_fits ‹_›)) rfl
    · exact .error
  · exact .error

theorem getPlainCmd_yields : ∀ bs : List Byte, Yields .plainCmd (getPlainCmd bs)
  | [] => .error
  | _ :: _ => .ok rfl rfl

theorem getPlainPix_yields (bs : List Byte) : Yields .plainPix (getPlainPix bs) := by
  unfold getPlainPix
  split
  · exact .error
  · split
    · exact .ok (decide_eq_true (getPixels_fits ‹_›)) rfl
    · exact .error

theorem getCaset_yields (bs : List Byte) : Yields .busCmd (getCaset bs) :=
  .andThen fun _ _ _ => .andThen fun _ _ _ => .ok rfl rfl

theorem getRaset_yields (bs : List Byte) : Yields .busCmd (getRaset bs) :=
  .andThen fun _ _ _ => .andThen fun _ _ _ => .ok rfl rfl

theorem getRamwr_yields (bs : List Byte) : Yields .busCmd (getRamwr bs) :=
  .andThen fun _ _ h => .ok (decide_eq_true (getPixels_fits h)) rfl

theorem getCommand_yields (par : Params) : ∀ bs : List Byte, Yields .busCmd (getCommand par bs)
  | [] => .error
  | _ :: bs =>
    .ite (.ok rfl rfl) <| .ite (.ok rfl rfl) <| .ite (.ok rfl rfl) <| .ite (.ok rfl rfl) <| .ite (.ok rfl rfl) <|
      .ite (.ok rfl rfl) <| .ite (getCaset_yields bs) <| .ite (getRaset_yields bs) <| .ite (getRamwr_yields bs) <|
      .ite (.ok rfl rfl) <| .ite (.ok rfl rfl) .error

theorem getTableRow_yields : ∀ bs : List Byte, Yields .tableRow (getTableRow bs)
  | [] => .error
  | _ :: _ => .ok rfl rfl

theorem decodeFront_yields (par : Params) (f : Format) (bs : List Byte) : Yields f (decodeFront par f bs) := by
  cases f with
  | req => exact getRequest_yields bs
  | quadWord => exact getQuad_yields bs
  | plainCmd => exact getPlainCmd_yields bs
  | plainPix => exact getPlainPix_yields bs
  | busCmd => exact getCommand_yields par bs
  | tableRow => exact getTableRow_yields bs

/-- A record that decodes is read to its end. -/
theorem front_of_decode {par : Params} {f : Format} {bs : List Byte} {i : Instr} (h : decode par f bs = .ok i) :
    decodeFront par f bs = .ok (i, []) := by
  unfold decode at h
  split at h
  · cases h; assumption
  · cases h
  · cases h

/-- Settles O2: every reader yields instructions of its own format, and a pixel count only below R113's bound. -/
theorem decodedInstructionsAreWellFormed : Obligations.DecodedInstructionsAreWellFormed := by
  unfold Obligations.DecodedInstructionsAreWellFormed
  exact fun par f bs i h => decodeFront_yields par f bs i [] (front_of_decode h)

/-! ### Address words (R86, R89) -/

theorem getQuad_notEmitted {t z op z' : Byte} (rest : List Byte) (ht : t ≠ Config.qspiOpRead)
    (h : z ≠ 0 ∨ z' ≠ 0 ∨ (t ≠ Config.qspiOpWrite ∧ t ≠ Config.qspiOpColor)) :
    getQuad (t :: z :: op :: z' :: rest) = .error .notEmitted := by
  rw [getQuad, if_neg ht]
  split
  · rename_i hz
    obtain ⟨hw, hc⟩ := (h.resolve_left (not_not_intro hz.1)).resolve_left (not_not_intro hz.2)
    rw [if_neg hw, if_neg hc]
  · rfl

/-- Settles O5: such a word passes none of the tests of the word reader, and the refusal is the whole record's. -/
theorem wordsNotEmittedAreRefused : Obligations.WordsNotEmittedAreRefused := by
  unfold Obligations.WordsNotEmittedAreRefused
  intro par a rest ht h
  have refused : decodeFront par .quadWord (wordBytes a ++ rest) = .error .notEmitted := getQuad_notEmitted rest ht h
  rw [decode, refused]

/-- Settles O4: the fields are the bytes of the word on the wire. -/
theorem addressWordFields : Obligations.AddressWordFields := by
  unfold Obligations.AddressWordFields
  intro tag op8
  simpa [wordBytes] using wordBytes_addressWord tag op8

/-- Settles O3: the decoder, run on eight closed records. -/
theorem wordsOfTheSpecDecode : Obligations.WordsOfTheSpecDecode := by
  unfold Obligations.WordsOfTheSpecDecode
  decide

end Sys2Proof
end

section
/-! Rows the FSM emits complete, and requests the block refuses (R82, R94, R169, R238). -/

namespace Sys2Proof.Machine

/-- The row of a submitted transaction puts it on BUS. -/
theorem exec_transportRow_transmits {s : State} {v : Variant} {x : Transaction} (hv : s.panel.cfgVariant = v)
    (hb : s.panel.bus = .submitted x) : exec (transportRow v x) s = .next { s with panel := { s.panel with
      bus := .awaiting x, hist := s.panel.hist ++ [.bus (frame v x)] } } := by
  subst hv
  exact (s.foreground_row _ (Panel.nextRow_of_submitted hb)).symm.trans (State.foreground_transmits hb)

/-- Settles O12: the row of a submitted transaction puts it on BUS, and the row of a sending state hands its transaction
to the encoder. -/
theorem emittedRowsComplete : Obligations.EmittedRowsComplete := by
  unfold Obligations.EmittedRowsComplete
  intro s i hn
  cases hb : s.panel.bus with
  | submitted x =>
    obtain rfl := Option.some.inj ((Panel.nextRow_of_submitted hb).symm.trans hn)
    exact ⟨_, exec_transportRow_transmits rfl hb⟩
  | awaiting x => simp [Panel.nextRow, hb] at hn
  | free =>
    cases hh : s.panel.hold with
    | some ms => simp [Panel.nextRow, hb, hh] at hn
    | none =>
      rw [Panel.nextRow_of_free hb hh] at hn
      obtain ⟨x, hx, -⟩ := exec_commandRow hn
      exact ⟨_, exec_commandRow_submits hb hh hn hx⟩

/-- Settles O15: every request but create goes through R238's one rule, and create tests the command bytes first. -/
theorem requestsThatAreRefused : Obligations.RequestsThatAreRefused := by
  unfold Obligations.RequestsThatAreRefused
  refine ⟨fun s i hi hf hl => ?_, fun s t l co bpp tab hd => ?_⟩
  · rw [exec_request hi, s.accept_absent _ hl hf]
  · exact if_neg hd

/-- Settles O16: the meaning of both rows is the refusal, whatever the state. -/
theorem opCodesThatSpellNoOperationAreRefused : Obligations.OpCodesThatSpellNoOperationAreRefused := by
  unfold Obligations.OpCodesThatSpellNoOperationAreRefused
  exact ⟨fun _ _ => rfl, fun _ _ => rfl⟩

/-! ### Command rows and transport rows (R84 to R93) -/

/-- Settles O30: each row is its state's, and so is the transaction it hands over. -/
theorem commandsWithEmptyPayload : Obligations.CommandsWithEmptyPayload := by
  unfold Obligations.CommandsWithEmptyPayload
  intro s hb hh
  refine ⟨?_, ?_, ?_, ?_, ?_, ?_⟩ <;> intro hf <;>
    exact exec_commandRow_submits hb hh (by simp only [Panel.commandRow, hf, BinaryCmd.row])
      (by simp only [Panel.transaction, hf, BinaryCmd.byte])

/-- Settles O32: the transaction of a push or of ORI_SEND carries the shadow register, that of INIT_ROW_SEND the row. -/
theorem registerCommandsAndRows : Obligations.RegisterCommandsAndRows := by
  unfold Obligations.RegisterCommandsAndRows
  intro s hb hh
  refine ⟨?_, ?_, ?_⟩
  · rintro (hf | hf) <;>
      exact exec_commandRow_submits hb hh (by rw [Panel.commandRow, hf]) (by rw [Panel.transaction, hf])
  · intro hf
    exact exec_commandRow_submits hb hh (by rw [Panel.commandRow, hf]) (by rw [Panel.transaction, hf])
  · intro r hf hr
    exact exec_commandRow_submits hb hh (by rw [Panel.commandRow, hf, hr]; rfl) (by rw [Panel.transaction, hf, hr]; rfl)

/-- Settles O33: a transport row puts the transaction on BUS as its variant frames it, under QuadAddressed behind R86's
word. -/
theorem transportRowsFrameTheTransaction : Obligations.TransportRowsFrameTheTransaction := by
  unfold Obligations.TransportRowsFrameTheTransaction
  intro s op8 payload buf n
  refine ⟨?_, ?_, ?_, ?_⟩ <;> intro hv hb <;> exact exec_transportRow_transmits hv hb

end Sys2Proof.Machine
end

section
/-! A transaction on BUS: its framing, the two turns that put it there, the answers of the Transport, and the schedule
beside them (R71, R110, R113, R115, R117, R169). -/

namespace Sys2Proof.Machine

open Config (Params)

/-- Settles O34: the first turn hands the state's transaction to the encoder, the second frames it and puts it on BUS. -/
theorem sendingStatesSendTheirTransaction : Obligations.SendingStatesSendTheirTransaction := by
  unfold Obligations.SendingStatesSendTheirTransaction
  intro s t moves hi hb hh ht
  calc core.run 2 s
    _ = core.run 1 _ := run_turn hi (State.foreground_submits hb hh ht)
    _ = core.run 0 _ := run_turn rfl (State.foreground_transmits rfl)
    _ = _ := core_run_zero _

theorem addressWord_op8 (tag op8 : Byte) : (addressWord tag op8).extractLsb' 8 8 = op8 := by
  obtain ⟨-, -, hop, -⟩ := addressWordFields tag op8
  exact hop

/-- Settles O6: Plain framing keeps the command byte as it is, and QuadAddressed framing keeps it in bits 15:8 of R86's
word. -/
theorem bothVariantsCarryTheSameContent : Obligations.BothVariantsCarryTheSameContent := by
  unfold Obligations.BothVariantsCarryTheSameContent
  intro v t
  cases v with
  | plain => cases t <;> rfl
  | quadAddressed => cases t <;> simp only [frame, BusTxn.logical, addressWord_op8]

/-! ### The schedule where no move is listed (log 3) -/

theorem step_single_turn {s : State} (hi : s.inputs = []) (n : Nat) :
    step { s with inputs := [.turn], draws := n } = State.foreground { s with draws := n } := by
  rw [step_turn _ [] rfl, ← hi]

theorem step_single_complete {s : State} (hi : s.inputs = []) (n : Nat) :
    step { s with inputs := [.complete], draws := n } = State.complete { s with draws := n } := by
  rw [step_input _ .complete [] rfl, ← hi]
  rfl

theorem step_schedule {s : State} (hi : s.inputs = []) : step s = s.schedule := by
  rw [step, State.advance, hi]

/-- With nothing for the foreground to do, a pending transfer is completed. -/
theorem State.schedule_complete {s : State} (hp : s.panel.pending ≠ []) (he : s.foregroundEnabled = false) :
    s.schedule = s.complete := by
  simp [State.schedule, hp, he]

/-- Whatever can move, the schedule picks the foreground or a completion, and takes at most one free value for it. -/
theorem State.schedule_cases (s : State) :
    ∃ n, s.schedule = State.foreground { s with draws := n } ∨ s.schedule = State.complete { s with draws := n } := by
  unfold State.schedule
  split
  · exact ⟨s.draws, .inl rfl⟩
  · split
    · split
      · exact ⟨s.draws + 1, .inr rfl⟩
      · exact ⟨s.draws + 1, .inl rfl⟩
    · exact ⟨s.draws, .inr rfl⟩

/-- Settles O11: the schedule picks the foreground or a completion, and a single listed move of either runs the same. -/
theorem unlistedStepIsATurnOrACompletion : Obligations.UnlistedStepIsATurnOrACompletion := by
  unfold Obligations.UnlistedStepIsATurnOrACompletion
  refine fun s hi => ⟨fun hp => ?_, fun hf hb hh hr hp => ?_, ?_⟩
  · exact (step_unlisted s hi hp).trans (step_single_turn hi s.draws).symm
  · have idle : s.foregroundEnabled = false := by simp [State.foregroundEnabled, hf, hb, hh, hr]
    exact ((step_schedule hi).trans (State.schedule_complete hp idle)).trans (step_single_complete hi s.draws).symm
  · obtain ⟨n, h⟩ := s.schedule_cases
    refine ⟨n, ?_⟩
    rwa [step_schedule hi, step_single_turn hi, step_single_complete hi]

/-! ### The answers of the Transport (R110, R113) -/

theorem tooLong_of_limit {par : Params} {limit : Nat} {op8 : Byte} {payload : List Byte}
    (hm : par.maxPayload = some limit) (hl : limit < payload.length) : tooLong par (.cmd op8 payload) = true := by
  simp [tooLong, hm, hl]

/-- Settles O36: such a payload is answered err without a draw, and an err ends the operation. -/
theorem payloadOverTheLimitFails : Obligations.PayloadOverTheLimitFails := by
  unfold Obligations.PayloadOverTheLimitFails
  intro s op8 payload limit moves hi hb hm hl
  rw [step_turn s moves hi, State.foreground_awaiting { s with inputs := moves } _ hb,
    State.answer_tooLong { s with inputs := moves } _ (tooLong_of_limit hm hl), State.onPanel, Panel.acknowledge_err]
  rfl

/-- A BUS_ACK of ok to the pixel transaction of a draw ends the draw (R113, R194). -/
theorem Panel.acknowledge_pix_drawRamwr {p : Panel} {w : Window} (hf : p.fsm = .drawRamwr w) (op8 : Byte)
    (buf n : Nat) : p.acknowledge (.pix op8 buf n) true = { p with
      fsm := .idle, bus := .free, hold := none, pending := p.pending ++ [⟨buf, n, p.sendRaced⟩]
      hist := p.hist ++ [.ack true, .status .ok] } := by
  simp [Panel.acknowledge_pix, Panel.afterOk, hf, Panel.finish]

/-- Settles O37: the Transport takes the listed answer, since no pixel transaction is over the limit. -/
theorem acceptedPixelsArePending : Obligations.AcceptedPixelsArePending := by
  unfold Obligations.AcceptedPixelsArePending
  intro s w op8 buf n rest moves hi hb hf ha
  rw [step_turn s moves hi,
    State.foreground_acknowledges (s := { s with inputs := moves }) hb (tooLong_pix _ op8 buf n) ha,
    Panel.acknowledge_pix_drawRamwr hf]

end Sys2Proof.Machine
end

section
/-! A create that fails, the software path of reset, and destroy (R131, R135, R137, R138). -/

namespace Sys2Proof.Machine

/-! ### A failed create (R131, R236) -/

/-- What a failed create adds to the history: its status, with the claim of the line where it got that far, and the
release of a line it was granted. -/
inductive FailedCreateEvents : List Event → Prop
  | unclaimed (st : Status) : FailedCreateEvents [.status st]
  | claimFailed (g : Nat) : FailedCreateEvents [.claim g false, .status .resetLineError]
  | released (g : Nat) : FailedCreateEvents [.claim g true, .release g, .status .unsupportedConfig]

namespace FailedCreateEvents

variable {events : List Event}

theorem not_bus_or_level (h : FailedCreateEvents events) :
    ∀ e ∈ events, (∀ x, e ≠ .bus x) ∧ ∀ a p, e ≠ .setReset a p := by
  cases h <;> simp

theorem eq_of_release_mem (h : FailedCreateEvents events) {g : Nat} (hg : .release g ∈ events) :
    events = [.claim g true, .release g, .status .unsupportedConfig] := by
  cases h with
  | unclaimed | claimFailed => simp at hg
  | released g' =>
    obtain rfl : g = g' := by simpa using hg
    rfl

end FailedCreateEvents

/-- An operation ended with nothing written but the events it added. -/
def Panel.ended (p : Panel) (events : List Event) : Panel :=
  { p with fsm := .idle, bus := .free, hold := none, hist := p.hist ++ events }

/-- The configuration check fails, or an object is made. -/
theorem State.configure_cases (s : State) (v : Variant) (line : Option ResetLine) (co bpp : Byte)
    (tab : Option (List InitRow)) :
    (s.configure v line co bpp tab).panel = (s.panel.releaseLine line).finish .unsupportedConfig ∨
    (s.configure v line co bpp tab).panel.life = .live := by
  unfold State.configure
  split
  · exact .inl rfl
  · exact .inr rfl

/-- A line granted and given back leaves the slot holding none. -/
theorem State.claimLine_released {s : State} {line : Option ResetLine} (hl : s.panel.lineHeld = none)
    (granted : (s.claimLine line).1 = true) : ∃ events, FailedCreateEvents events ∧
      ((s.claimLine line).2.panel.releaseLine line).finish .unsupportedConfig = s.panel.ended events := by
  cases line with
  | none => exact ⟨_, .unclaimed .unsupportedConfig, rfl⟩
  | some l =>
    have answer : s.ask.1 = true := granted
    exact ⟨_, .released l.gpio, by simp [State.claimLine, Panel.releaseLine, Panel.finish, Panel.ended, hl, answer]⟩

theorem State.claimLine_refused {s : State} {line : Option ResetLine} (refused : (s.claimLine line).1 = false) :
    ∃ events, FailedCreateEvents events ∧
      (s.claimLine line).2.panel.finish .resetLineError = s.panel.ended events := by
  cases line with
  | none => cases refused
  | some l =>
    have answer : s.ask.1 = false := refused
    exact ⟨_, .claimFailed l.gpio, by simp [State.claimLine, Panel.finish, Panel.ended, answer]⟩

/-- A create that leaves the slot absent only ends (R131). -/
theorem State.createHere_failed {s : State} {t : Option Variant} {line : Option ResetLine} {co bpp : Byte}
    {tab : Option (List InitRow)} (hl : s.panel.lineHeld = none)
    (ha : (s.createHere t line co bpp tab).panel.life = .absent) :
    ∃ events, FailedCreateEvents events ∧ (s.createHere t line co bpp tab).panel = s.panel.ended events := by
  cases t with
  | none => exact ⟨_, .unclaimed .invalidArgument, rfl⟩
  | some v =>
    rw [← s.ask_panel] at hl ⊢
    unfold State.createHere at ha ⊢
    cases allocated : s.ask.1 with
    | false => exact ⟨_, .unclaimed .outOfMemory, rfl⟩
    | true =>
      cases claimed : (s.ask.2.claimLine line).1 with
      | false => exact State.claimLine_refused claimed
      | true =>
        simp only [allocated, claimed, if_true] at ha ⊢
        obtain unsupported | made := (s.ask.2.claimLine line).2.configure_cases v line co bpp tab
        · rw [unsupported]
          exact State.claimLine_released hl claimed
        · cases made.symm.trans ha

/-- Settles O20: a create on an absent slot runs R130 there, and where that leaves no object it has only ended. -/
theorem failedCreateLeavesNoTrace : Obligations.FailedCreateLeavesNoTrace := by
  unfold Obligations.FailedCreateLeavesNoTrace
  intro s u t l co bpp tab absent unheld h failed
  by_cases hd : s.params.distinct
  · rw [execCreate_absent hd absent] at h
    cases h
    obtain ⟨events, he, hp⟩ := State.createHere_failed unheld failed
    rw [hp]
    exact ⟨rfl, events, rfl, he.not_bus_or_level, fun g hg => he.eq_of_release_mem hg⟩
  · have refused : execCreate t l co bpp tab s = .refused .commandsNotDistinct := if_neg hd
    cases refused.symm.trans h

/-! ### The software path of reset (R135, R137) -/

theorem Panel.TurnsTo.startSwhold {p : Panel} (hb : p.bus = .free) (hh : p.hold = none) (hf : p.fsm = .rstSwhold) :
    p.TurnsTo (p.startHold Config.tSwresetMs) := by
  rintro u rfl
  rw [u.foreground_action hb hh (by simp [Panel.commandRow, hf]), State.fsmAction, hf]
  rfl

/-- RST_SWHOLD takes two turns, and its Wait sets RESET_DONE (R135, R137). -/
theorem run_swhold (s : State) {p : Panel} (hf : p.fsm = .rstSwhold) (hb : p.bus = .free) (hh : p.hold = none)
    (k : Nat) (moves : List Input) :
    core.run (k + 2) { s with panel := p, inputs := List.replicate (k + 2) .turn ++ moves } =
      core.run k { s with
        inputs := List.replicate k .turn ++ moves
        panel := { p with
          fsm := .idle, resetDone := true, hist := p.hist ++ [.waitStart 20, .waitEnd 20, .status .ok] } } := by
  have wait := Panel.TurnsTo.startSwhold hb hh hf
  have wake : (p.startHold 20).TurnsTo ((p.startHold 20).endHold 20) := .endHold hb rfl
  have woken : (p.startHold 20).endHold 20 = { p with
      fsm := .idle, resetDone := true, hist := p.hist ++ [.waitStart 20, .waitEnd 20, .status .ok] } := by
    simp [Panel.endHold, Panel.afterHold, Panel.startHold, Panel.finish, hf, hb, hh]
  rw [wait.run s (k + 1) moves, ← woken]
  exact wake.run s k moves

/-- Settles O23: the request takes RST_SWRESET, which sends SWRESET; an ok goes on to the hold, an err ends there. -/
theorem softwareResetPath : Obligations.SoftwareResetPath := by
  unfold Obligations.SoftwareResetPath
  intro s rest moves hs hr
  have accepted : exec .reset s = .next { s with panel := { s.panel with fsm := .rstSwreset } } := by
    rw [exec_ready hs rfl]
    dsimp only [Panel.started]
    rw [hr]
    rfl
  obtain ⟨-, hf, hb, hh⟩ := hs
  have sends (k : Nat) (ok : Bool) (ha : s.answers = ok :: rest) (hi : s.turns (k + 3) moves) :=
    run_sends (s := { s with panel := { s.panel with fsm := .rstSwreset } }) (k := k) hi hb hh rfl (tooLong_nil _ _) ha
  refine ⟨accepted, fun ha hi => ⟨_, accepted, (sends 2 true ha hi).trans ?_⟩,
    fun ha hi => ⟨_, accepted, (sends 0 false ha hi).trans ?_⟩⟩
  · refine (run_swhold { s with answers := rest } (by rfl) (by rfl) (by exact hh) 0 moves).trans ?_
    rw [core_run_zero]
    simp [Panel.sent, Panel.acknowledge_cmd, Panel.afterOk, hf, hb]
  · rw [core_run_zero]
    simp [Panel.sent, Panel.acknowledge_err, Transaction.op8, hf, hb, hh]

/-! ### destroy (R138) -/

/-- With nothing under way, the end of an operation is its status alone. -/
theorem Panel.finish_of_quiet {p : Panel} (hf : p.fsm = .idle) (hb : p.bus = .free) (hh : p.hold = none) (st : Status) :
    p.finish st = p.emit (.status st) := by
  rw [Panel.finish, ← hf, ← hb, ← hh]
  rfl

@[simp] theorem Panel.releaseLine_fsm (p : Panel) (l : Option ResetLine) : (p.releaseLine l).fsm = p.fsm := by
  cases l <;> rfl
@[simp] theorem Panel.releaseLine_bus (p : Panel) (l : Option ResetLine) : (p.releaseLine l).bus = p.bus := by
  cases l <;> rfl
@[simp] theorem Panel.releaseLine_hold (p : Panel) (l : Option ResetLine) : (p.releaseLine l).hold = p.hold := by
  cases l <;> rfl

/-- destroy runs whole in the step that accepts it. -/
theorem exec_destroy_ready {s : State} (hs : s.ready) : exec .destroy s = .next { s with
    panel := Panel.emit { s.panel.releaseLine s.panel.cfgRst with life := .destroyed } (.status .ok) } := by
  rw [exec_ready hs rfl]
  obtain ⟨-, hf, hb, hh⟩ := hs
  have ended : s.panel.started .destroy = _ :=
    Panel.finish_of_quiet (p := { s.panel.releaseLine s.panel.cfgRst with life := .destroyed }) (by simp [hf])
      (by simp [hb]) (by simp [hh]) .ok
  rw [ended]

/-- Settles O24: what destroy writes beside LIFE and its status is the release of the line, where there is one. -/
theorem destroyReleasesTheLine : Obligations.DestroyReleasesTheLine := by
  unfold Obligations.DestroyReleasesTheLine
  intro s hs
  have released {line : Option ResetLine} (hr : s.panel.cfgRst = line) :
      s.panel.releaseLine s.panel.cfgRst = s.panel.releaseLine line := congrArg _ hr
  refine ⟨fun hr => ?_, fun l hr => ?_⟩
  · rw [exec_destroy_ready hs, released hr]
    rfl
  · rw [exec_destroy_ready hs, released hr]
    simp [Panel.releaseLine, Panel.emit]

end Sys2Proof.Machine
end

section
/-! The states of the init sequencer, one at a time: its entry, its Waits, and the check of a row (R160, R162, R164,
R165, R167, R168). -/

namespace Sys2Proof.Machine

open Config (Params)

/-- Settles O25: on a live object in IDLE the request starts its operation, whatever RESET_DONE says. -/
theorem initEntry : Obligations.InitEntry := by
  unfold Obligations.InitEntry
  intro s hl hf
  exact (exec_request rfl s).trans (s.accept_live _ hl hf)

/-! ### The Waits (R162, R167) -/

/-- A state that starts a Wait takes two turns: its own and the Timer's (log 2). -/
theorem run_hold {s : State} {k ms : Nat} {moves : List Input} (hi : s.turns (k + 2) moves) (hb : s.panel.bus = .free)
    (start : s.panel.TurnsTo (s.panel.startHold ms)) :
    core.run (k + 2) s = core.run k { s with
      inputs := List.replicate k .turn ++ moves, panel := (s.panel.startHold ms).endHold ms } :=
  have wake : (s.panel.startHold ms).TurnsTo ((s.panel.startHold ms).endHold ms) := .endHold hb rfl
  calc core.run (k + 2) s
    _ = core.run (k + 1) _ := run_turn hi (start _ rfl)
    _ = core.run k _ := run_turn rfl (wake _ rfl)

theorem Panel.TurnsTo.startSlpwait {p : Panel} (hf : p.fsm = .initSlpwait) (hb : p.bus = .free) (hh : p.hold = none) :
    p.TurnsTo (p.startHold Config.tSlpoutMs) := by
  rintro u rfl
  rw [u.foreground_action hb hh (by simp [Panel.commandRow, hf]), State.fsmAction, hf]
  rfl

theorem Panel.TurnsTo.rowWait {p q : Panel} (hf : p.fsm = .initRowWait) (hb : p.bus = .free) (hh : p.hold = none)
    (hq : p.rowWait = some q) : p.TurnsTo q := by
  rintro u rfl
  rw [u.foreground_action hb hh (by simp [Panel.commandRow, hf]), State.fsmAction, hf]
  dsimp only
  rw [hq]

/-- INIT_SLPWAIT takes two turns (R162). -/
theorem run_slpwait {s : State} {k : Nat} {moves : List Input} (hi : s.turns (k + 2) moves)
    (hf : s.panel.fsm = .initSlpwait) (hb : s.panel.bus = .free) (hh : s.panel.hold = none) :
    core.run (k + 2) s = core.run k { s with
      inputs := List.replicate k .turn ++ moves
      panel := { s.panel with
        fsm := .initPushMadctl, hist := s.panel.hist ++ [.waitStart 100, .waitEnd 100] } } := by
  have woken : (s.panel.startHold 100).endHold 100 = { s.panel with
      fsm := .initPushMadctl, hist := s.panel.hist ++ [.waitStart 100, .waitEnd 100] } := by
    simp [Panel.endHold, Panel.afterHold, Panel.startHold, hf, hh]
  rw [← woken]
  exact run_hold hi hb (.startSlpwait hf hb hh)

/-- How many turns INIT_ROW_WAIT takes for a row of this delay. -/
def waitTurns (ms : Nat) : Nat := if 0 < ms then 2 else 1

/-- INIT_ROW_WAIT makes the Waits of its row, then goes to the next (R167). -/
theorem run_rowWait {s : State} {r : InitRow} {k : Nat} {moves : List Input}
    (hi : s.turns (k + waitTurns r.delayMs) moves) (hf : s.panel.fsm = .initRowWait) (hb : s.panel.bus = .free)
    (hh : s.panel.hold = none) (hr : s.panel.cfgTable[s.panel.row]? = some r) :
    core.run (k + waitTurns r.delayMs) s = core.run k { s with
      inputs := List.replicate k .turn ++ moves
      panel := { s.panel with
        fsm := .initRowCheck, row := s.panel.row + 1, hist := s.panel.hist ++ rowWaits [r] } } := by
  by_cases hd : 0 < r.delayMs
  · have woken : (s.panel.startHold r.delayMs).endHold r.delayMs = { s.panel with
        fsm := .initRowCheck, row := s.panel.row + 1, hist := s.panel.hist ++ rowWaits [r] } := by
      simp [Panel.endHold, Panel.afterHold, Panel.startHold, rowWaits, hf, hh, hd]
    have two : waitTurns r.delayMs = 2 := if_pos hd
    rw [two] at hi ⊢
    rw [← woken]
    exact run_hold hi hb (.rowWait hf hb hh (by simp [Panel.rowWait, hr, hd]))
  · have one : waitTurns r.delayMs = 1 := if_neg hd
    rw [one] at hi ⊢
    exact run_turn hi (Panel.TurnsTo.rowWait hf hb hh (by simp [Panel.rowWait, rowWaits, hr, hd]) _ rfl)

/-- Settles O28: a delay of 0 makes INIT_ROW_WAIT one turn with no Wait, a positive one two turns with its Wait. -/
theorem rowDelay : Obligations.RowDelay := by
  unfold Obligations.RowDelay
  refine ⟨fun s r moves hf hb hh hr => ⟨fun hd hi => ?_, fun hd hi => ?_⟩, fun s moves hf hb hh hi => ?_⟩
  · exact Panel.TurnsTo.step (.rowWait hf hb hh (by simp [Panel.rowWait, hr, hd])) hi
  · have two : 0 + waitTurns r.delayMs = 2 := by simp [waitTurns, hd]
    have waits := run_rowWait (k := 0) (two ▸ hi) hf hb hh hr
    rw [two, core_run_zero] at waits
    simpa [rowWaits, hd] using waits
  · exact run_slpwait (k := 0) hi hf hb hh

/-! ### INIT_ROW_CHECK (R164, R165, R168) -/

theorem State.foreground_rowCheck {s : State} {q : Panel} (hf : s.panel.fsm = .initRowCheck) (hb : s.panel.bus = .free)
    (hh : s.panel.hold = none) (hq : s.panel.rowCheck s.params = some q) :
    s.foreground = .next { s with panel := q } := by
  rw [s.foreground_action hb hh (by simp [Panel.commandRow, hf]), State.fsmAction, hf]
  dsimp only
  rw [hq]

theorem Panel.rowCheck_of_end {p : Panel} (par : Params) (h : p.row = p.cfgTable.length) :
    p.rowCheck par = some (p.finish .ok) := if_pos h

theorem Panel.rowCheck_of_row {p : Panel} (par : Params) {r : InitRow} (h : p.cfgTable[p.row]? = some r) :
    p.rowCheck par = some (p.checkRow par r) := by
  have inside : p.row ≠ p.cfgTable.length := (List.getElem?_eq_some_iff.1 h).1.ne
  rw [Panel.rowCheck, if_neg inside, h]
  rfl

theorem step_rowCheck {s : State} {q : Panel} {moves : List Input} (hi : s.turns 1 moves)
    (hf : s.panel.fsm = .initRowCheck) (hb : s.panel.bus = .free) (hh : s.panel.hold = none)
    (hq : s.panel.rowCheck s.params = some q) : step s = .next { s with inputs := moves, panel := q } :=
  (step_turn s moves hi).trans (State.foreground_rowCheck (s := { s with inputs := moves }) hf hb hh hq)

/-- Settles O26: with ROW at the end of the table the check ends the operation. -/
theorem initEndsAfterTheLastRow : Obligations.InitEndsAfterTheLastRow := by
  unfold Obligations.InitEndsAfterTheLastRow
  intro s moves hi hf hb hh hend
  rw [step_rowCheck hi hf hb hh (Panel.rowCheck_of_end _ hend)]
  simp [Panel.finish, hb, hh]

section

variable {par : Params} {p : Panel} {r : InitRow}

theorem Panel.checkRow_of_unmanaged (hm : r.opcode ≠ par.cmdMadctl) (hc : r.opcode ≠ par.cmdColmod) :
    p.checkRow par r = { p with fsm := .initRowSend } := if_neg (by simp [hm, hc])

theorem Panel.checkRow_of_defect (hop : r.opcode = par.cmdMadctl ∨ r.opcode = par.cmdColmod) (hp : r.payload = []) :
    p.checkRow par r = (p.setFault .tableDefect).finish (.initTableError r.opcode) := by
  rw [Panel.checkRow, if_pos hop, hp]

theorem Panel.checkRow_of_madctl {v : Byte} {more : List Byte} (hp : r.payload = v :: more)
    (hm : r.opcode = par.cmdMadctl) : p.checkRow par r = { p with
      fsm := .initRowSend, orient := v, ovr := { p.ovr with madctl := true }
      diag := p.diag ++ (if p.ovr.madctl then [] else [r.opcode])
      hist := p.hist ++ (if p.ovr.madctl then [] else [.diag r.opcode]) } := by
  simp only [Panel.checkRow, hp, hm, true_or, if_true, Panel.overrideMadctl]
  cases h : p.ovr.madctl with
  | false => rfl
  | true => simp [← h]

theorem Panel.checkRow_of_colmod {v : Byte} {more : List Byte} (hp : r.payload = v :: more)
    (hm : r.opcode ≠ par.cmdMadctl) (hc : r.opcode = par.cmdColmod) : p.checkRow par r = { p with
      fsm := .initRowSend, colmodSh := v, ovr := { p.ovr with colmod := true }
      diag := p.diag ++ (if p.ovr.colmod then [] else [r.opcode])
      hist := p.hist ++ (if p.ovr.colmod then [] else [.diag r.opcode]) } := by
  simp only [Panel.checkRow, hp, if_pos (Or.inr hc), if_neg hm, Panel.overrideColmod]
  cases h : p.ovr.colmod with
  | false => rfl
  | true => simp [← h]

end

/-- Settles O27: the four cases of the test of a row. -/
theorem overrideDetection : Obligations.OverrideDetection := by
  unfold Obligations.OverrideDetection
  intro s r moves hi hf hb hh hr
  have checks := step_rowCheck hi hf hb hh (Panel.rowCheck_of_row s.params hr)
  refine ⟨fun hm hc => ?_, fun hop hp => ?_, fun v more hp hm => ?_, fun v more hp hm hc => ?_⟩
  · rw [checks, Panel.checkRow_of_unmanaged hm hc]
  · rw [checks, Panel.checkRow_of_defect hop hp]
    simp [Panel.finish, Panel.setFault, FaultBits.set, hb, hh]
  · rw [checks, Panel.checkRow_of_madctl hp hm]
  · rw [checks, Panel.checkRow_of_colmod hp hm hc]

end Sys2Proof.Machine
end

section
/-! A whole successful init: the three pushes, the walk over the table, and what it leaves (R161 to R170). -/

namespace Sys2Proof.Machine

open Config (Params)

/-! ### OVR against the record of a table's overrides (R33, R165, R170) -/

/-- The managed commands OVR has recorded. -/
def Overrides.seen (o : Overrides) (par : Params) : List Byte :=
  (if o.madctl then [par.cmdMadctl] else []) ++ (if o.colmod then [par.cmdColmod] else [])

/-- OVR once a row with this command byte is checked. -/
def Overrides.note (o : Overrides) (par : Params) (op : Byte) : Overrides where
  madctl := o.madctl || decide (op = par.cmdMadctl)
  colmod := o.colmod || decide (op = par.cmdColmod)

theorem Overrides.mem_seen (o : Overrides) (par : Params) (x : Byte) :
    x ∈ o.seen par ↔ (o.madctl = true ∧ x = par.cmdMadctl) ∨ (o.colmod = true ∧ x = par.cmdColmod) := by
  simp [seen]

theorem Overrides.mem_seen_note (o : Overrides) (par : Params) (op x : Byte) :
    x ∈ (o.note par op).seen par ↔ x ∈ o.seen par ∨ (x = op ∧ managed par op = true) := by
  simp only [mem_seen, note, managed, Bool.or_eq_true, decide_eq_true_eq, beq_iff_eq]
  grind

/-- Only which commands are seen matters to the record, not their order. -/
theorem firstOverrides_congr (par : Params) {seen seen' : List Byte} (h : ∀ x, x ∈ seen ↔ x ∈ seen')
    (rs : List InitRow) : firstOverrides par seen rs = firstOverrides par seen' rs := by
  induction rs generalizing seen seen' with
  | nil => rfl
  | cons r rs ih =>
    have here : seen.contains r.opcode = seen'.contains r.opcode := by simp [h]
    have noted : ∀ x, x ∈ r.opcode :: seen ↔ x ∈ r.opcode :: seen' := by simp [h]
    rw [firstOverrides, firstOverrides, here, ih h, ih noted]

theorem firstOverrides_cons (par : Params) (o : Overrides) (r : InitRow) (rs : List InitRow) :
    firstOverrides par (o.seen par) (r :: rs) =
      firstOverrides par (o.seen par) [r] ++ firstOverrides par ((o.note par r.opcode).seen par) rs := by
  rw [firstOverrides, firstOverrides]
  by_cases fresh : (managed par r.opcode && !(o.seen par).contains r.opcode) = true
  · rw [if_pos fresh, if_pos fresh]
    refine congrArg (r.opcode :: ·) (firstOverrides_congr par (fun x => ?_) rs)
    obtain ⟨hm, -⟩ := (Bool.and_eq_true _ _).mp fresh
    simp [o.mem_seen_note, hm, or_comm]
  · rw [if_neg fresh, if_neg fresh]
    refine firstOverrides_congr par (fun x => ?_) rs
    have known (hm : managed par r.opcode = true) : r.opcode ∈ o.seen par := by simpa [hm] using fresh
    rw [o.mem_seen_note]
    exact ⟨.inl, fun h => h.elim id fun ⟨hx, hm⟩ => hx ▸ known hm⟩

/-! ### One row -/

/-- A row that is no table defect (R165), with a payload the Transport can take (R110). -/
abbrev rowFits (par : Params) (r : InitRow) : Prop :=
  (managed par r.opcode = true → r.payload ≠ []) ∧ payloadFits par r.payload.length

/-- What a row that passes its check, sent and accepted, makes of an object in INIT_ROW_CHECK (R165 to R167). -/
def Panel.walkRow (par : Params) (p : Panel) (r : InitRow) : Panel :=
  { p with
    row := p.row + 1
    orient := lastOverride par.cmdMadctl p.orient [r]
    colmodSh := lastOverride par.cmdColmod p.colmodSh [r]
    ovr := p.ovr.note par r.opcode
    diag := p.diag ++ firstOverrides par (p.ovr.seen par) [r]
    hist := p.hist ++ (firstOverrides par (p.ovr.seen par) [r]).map .diag ++
      [.bus (frame p.cfgVariant (.cmd r.opcode r.payload)), .ack true] ++ rowWaits [r] }

/-- The check of a row that is no table defect, in one form for every command byte (R165). -/
theorem Panel.checkRow_of_fits {par : Params} {p : Panel} {r : InitRow} (hd : par.cmdMadctl ≠ par.cmdColmod)
    (hp : managed par r.opcode = true → r.payload ≠ []) : p.checkRow par r = { p with
      fsm := .initRowSend
      orient := lastOverride par.cmdMadctl p.orient [r]
      colmodSh := lastOverride par.cmdColmod p.colmodSh [r]
      ovr := p.ovr.note par r.opcode
      diag := p.diag ++ firstOverrides par (p.ovr.seen par) [r]
      hist := p.hist ++ (firstOverrides par (p.ovr.seen par) [r]).map .diag } := by
  by_cases hop : r.opcode = par.cmdMadctl ∨ r.opcode = par.cmdColmod
  · obtain ⟨v, more, hv⟩ := List.exists_cons_of_ne_nil (hp (by simpa [managed] using hop))
    by_cases hm : r.opcode = par.cmdMadctl
    · rw [Panel.checkRow_of_madctl hv hm]
      cases h : p.ovr.madctl <;>
        simp [lastOverride, firstOverrides, managed, Overrides.note, Overrides.seen, hm, hv, hd, h]
    · have hc := hop.resolve_left hm
      rw [Panel.checkRow_of_colmod hv hm hc]
      cases h : p.ovr.colmod <;>
        simp [lastOverride, firstOverrides, managed, Overrides.note, Overrides.seen, hc, hv, hd.symm, h]
  · obtain ⟨hm, hc⟩ := not_or.1 hop
    have unnoted : p.ovr.note par r.opcode = p.ovr := by simp [Overrides.note, hm, hc]
    rw [Panel.checkRow_of_unmanaged hm hc, unnoted]
    simp [lastOverride, firstOverrides, managed, hm, hc]

theorem Panel.sent_cmd_ok (p : Panel) (op : Byte) (payload : List Byte) :
    p.sent (.cmd op payload) true = Panel.afterOk { p with
      bus := .free, hist := p.hist ++ [.bus (frame p.cfgVariant (.cmd op payload)), .ack true] } := by
  simp [Panel.sent, Panel.acknowledge_cmd]

theorem Panel.transaction_of_row {par : Params} {p : Panel} {r : InitRow} (hf : p.fsm = .initRowSend)
    (hr : p.cfgTable[p.row]? = some r) : p.transaction par = some (.cmd r.opcode r.payload) := by
  simp [Panel.transaction, hf, hr]

/-- A row takes a turn for its check, three for its transaction, and those of its Wait. -/
theorem run_row {s : State} {r : InitRow} {rest : List Bool} {k : Nat} {moves : List Input}
    (hi : s.turns (k + waitTurns r.delayMs + 4) moves) (hf : s.panel.fsm = .initRowCheck) (hb : s.panel.bus = .free)
    (hh : s.panel.hold = none) (hr : s.panel.cfgTable[s.panel.row]? = some r)
    (hd : s.params.cmdMadctl ≠ s.params.cmdColmod) (hfit : rowFits s.params r) (ha : s.answers = true :: rest) :
    core.run (k + waitTurns r.delayMs + 4) s = core.run k { s with
      inputs := List.replicate k .turn ++ moves, answers := rest, panel := s.panel.walkRow s.params r } := by
  obtain ⟨hp, hl⟩ := hfit
  have checked := Panel.rowCheck_of_row s.params hr
  rw [Panel.checkRow_of_fits hd hp] at checked
  refine (run_turn hi (State.foreground_rowCheck hf hb hh checked)).trans ?_
  refine Eq.trans (run_sends (by rfl) hb hh (Panel.transaction_of_row (by rfl) hr) (tooLong_of_fits hl) ha) ?_
  rw [Panel.sent_cmd_ok]
  refine Eq.trans (run_rowWait (by rfl) (by rfl) (by rfl) hh hr) ?_
  simp [Panel.afterOk, Panel.walkRow, hf, hb]

/-! ### The table -/

/-- How many turns the rows of a table and the check at its end take. -/
def walkTurns : List InitRow → Nat
  | [] => 1
  | r :: rs => walkTurns rs + waitTurns r.delayMs + 4

theorem initSteps_eq (table : List InitRow) : initSteps table = walkTurns table + 11 := by
  induction table with
  | nil => rfl
  | cons r rs ih =>
    rw [initSteps, walkTurns, waitTurns, ih]
    split <;> omega

/-- What the rows of a table make of an object, one after another. -/
def Panel.walk (par : Params) (p : Panel) (rows : List InitRow) : Panel := rows.foldl (Panel.walkRow par) p

/-- The object is at INIT_ROW_CHECK with nothing under way: `done` lies behind ROW, `left` is to come. -/
structure Panel.AtRow (p : Panel) (done left : List InitRow) : Prop where
  fsm   : p.fsm = .initRowCheck
  bus   : p.bus = .free
  hold  : p.hold = none
  table : p.cfgTable = done ++ left
  row   : p.row = done.length

theorem Panel.AtRow.walkRow {p : Panel} {r : InitRow} {done left : List InitRow} (h : p.AtRow done (r :: left))
    (par : Params) : (p.walkRow par r).AtRow (done ++ [r]) left where
  fsm   := h.fsm
  bus   := h.bus
  hold  := h.hold
  table := by simpa [Panel.walkRow] using h.table
  row   := by simp [Panel.walkRow, h.row]

/-- From INIT_ROW_CHECK the rows left are walked, and the operation ends (R164, R168). -/
theorem run_walk {s : State} {rest : List Bool} {moves : List Input} {done left : List InitRow}
    (hi : s.turns (walkTurns left) moves) (hat : s.panel.AtRow done left)
    (hd : s.params.cmdMadctl ≠ s.params.cmdColmod)
    (hfit : ∀ r ∈ left, rowFits s.params r)
    (ha : s.answers = List.replicate left.length true ++ rest) :
    core.run (walkTurns left) s = .next { s with
      inputs := moves, answers := rest, panel := (s.panel.walk s.params left).finish .ok } := by
  induction left generalizing s done with
  | nil =>
    have ended : s.panel.row = s.panel.cfgTable.length := by simp [hat.row, hat.table]
    have answered : s.answers = rest := ha
    subst answered
    exact run_turn (k := 0) hi (State.foreground_rowCheck hat.fsm hat.bus hat.hold (Panel.rowCheck_of_end _ ended))
  | cons r left ih =>
    have here : s.panel.cfgTable[s.panel.row]? = some r := by simp [hat.row, hat.table]
    refine (run_row hi hat.fsm hat.bus hat.hold here hd (hfit r List.mem_cons_self) ha).trans ?_
    exact ih rfl (hat.walkRow s.params) hd (fun q hq => hfit q (List.mem_cons_of_mem r hq)) rfl

/-! ### What the walk leaves (R161, R166, R167, R170) -/

section

variable (par : Params) (p : Panel) (rows : List InitRow)

/-- What no row changes, no table changes. -/
theorem Panel.walk_kept {α : Type} (g : Panel → α) (hg : ∀ q r, g (Panel.walkRow par q r) = g q) :
    g (p.walk par rows) = g p := by
  induction rows generalizing p with
  | nil => rfl
  | cons r rows ih => exact (ih (p.walkRow par r)).trans (hg p r)

theorem Panel.walk_orient : (p.walk par rows).orient = lastOverride par.cmdMadctl p.orient rows := by
  induction rows generalizing p with
  | nil => rfl
  | cons r rows ih => exact ih (p.walkRow par r)

theorem Panel.walk_colmodSh : (p.walk par rows).colmodSh = lastOverride par.cmdColmod p.colmodSh rows := by
  induction rows generalizing p with
  | nil => rfl
  | cons r rows ih => exact ih (p.walkRow par r)

theorem Panel.walk_diag : (p.walk par rows).diag = p.diag ++ firstOverrides par (p.ovr.seen par) rows := by
  induction rows generalizing p with
  | nil => exact (List.append_nil _).symm
  | cons r rows ih =>
    rw [firstOverrides_cons, ← List.append_assoc]
    exact ih (p.walkRow par r)

theorem busEvents_diags (ops : List Byte) : busEvents (ops.map .diag) = [] := by
  simp [busEvents]

theorem waitEvents_diags (ops : List Byte) : waitEvents (ops.map .diag) = [] := by
  simp [waitEvents]

theorem busEvents_rowWaits : busEvents (rowWaits rows) = [] := by
  induction rows with
  | nil => rfl
  | cons r rows ih =>
    rw [rowWaits_cons, busEvents_append, ih]
    split <;> rfl

theorem waitEvents_rowWaits : waitEvents (rowWaits rows) = rowWaits rows := by
  induction rows with
  | nil => rfl
  | cons r rows ih =>
    rw [rowWaits_cons, waitEvents_append, ih]
    split <;> rfl

theorem Panel.walk_busEvents : busEvents (p.walk par rows).hist = busEvents p.hist ++
    (rows.map fun r => Transaction.cmd r.opcode r.payload).map (frame p.cfgVariant) := by
  induction rows generalizing p with
  | nil => exact (List.append_nil _).symm
  | cons r rows ih =>
    have row : busEvents (p.walkRow par r).hist =
        busEvents p.hist ++ [frame p.cfgVariant (.cmd r.opcode r.payload)] := by
      simp only [Panel.walkRow, busEvents_append, busEvents_diags, busEvents_rowWaits, List.append_nil]
      rfl
    refine (ih (p.walkRow par r)).trans ?_
    rw [row, List.append_assoc]
    rfl

theorem Panel.walk_waitEvents : waitEvents (p.walk par rows).hist = waitEvents p.hist ++ rowWaits rows := by
  induction rows generalizing p with
  | nil => exact (List.append_nil _).symm
  | cons r rows ih =>
    have row : waitEvents (p.walkRow par r).hist = waitEvents p.hist ++ rowWaits [r] := by
      simp only [Panel.walkRow, waitEvents_append, waitEvents_diags, waitEvents_rowWaits, List.append_nil]
      exact congrArg (· ++ rowWaits [r]) (List.append_nil _)
    refine (ih (p.walkRow par r)).trans ?_
    rw [row, List.append_assoc, rowWaits_cons, rowWaits_cons, List.append_assoc]
    rfl

end

/-! ### The whole init -/

/-- What the pushes of SLPOUT, MADCTL and COLMOD, all accepted, make of an object in INIT_SLPOUT (R161 to R163). -/
def Panel.pushed (par : Params) (p : Panel) : Panel :=
  { p with
    fsm := .initRowCheck
    row := 0
    hist := p.hist ++ [.bus (frame p.cfgVariant (.cmd par.cmdSlpout [])), .ack true, .waitStart 100, .waitEnd 100,
      .bus (frame p.cfgVariant (.cmd par.cmdMadctl [p.orient])), .ack true,
      .bus (frame p.cfgVariant (.cmd par.cmdColmod [p.colmodSh])), .ack true] }

theorem Panel.finish_busEvents (p : Panel) (st : Status) : busEvents (p.finish st).hist = busEvents p.hist :=
  (busEvents_append _ _).trans (List.append_nil _)

theorem Panel.finish_waitEvents (p : Panel) (st : Status) : waitEvents (p.finish st).hist = waitEvents p.hist :=
  (waitEvents_append _ _).trans (List.append_nil _)

theorem Panel.pushed_busEvents (par : Params) (p : Panel) : busEvents (p.pushed par).hist = busEvents p.hist ++
    [Transaction.cmd par.cmdSlpout [], .cmd par.cmdMadctl [p.orient], .cmd par.cmdColmod [p.colmodSh]].map
      (frame p.cfgVariant) := busEvents_append _ _

theorem Panel.pushed_waitEvents (par : Params) (p : Panel) :
    waitEvents (p.pushed par).hist = waitEvents p.hist ++ [.waitStart 100, .waitEnd 100] := waitEvents_append _ _

/-- From INIT_SLPOUT to the first row: SLPOUT and its Wait, then both shadow registers. -/
theorem run_pushes {s : State} {rest : List Bool} {k : Nat} {moves : List Input} (hi : s.turns (k + 11) moves)
    (hf : s.panel.fsm = .initSlpout) (hb : s.panel.bus = .free) (hh : s.panel.hold = none)
    (hl : payloadFits s.params 1) (ha : s.answers = true :: true :: true :: rest) :
    core.run (k + 11) s = core.run k { s with
      inputs := List.replicate k .turn ++ moves, answers := rest, panel := s.panel.pushed s.params } := by
  refine (run_sends hi hb hh (by rw [Panel.transaction, hf]) (tooLong_nil _ _) ha).trans ?_
  rw [Panel.sent_cmd_ok, Panel.afterOk, hf]
  refine Eq.trans (run_slpwait (by rfl) (by rfl) (by rfl) hh) ?_
  refine Eq.trans (run_sends (by rfl) (by rfl) hh (by rfl) (tooLong_of_fits (by exact hl)) (by rfl)) ?_
  rw [Panel.sent_cmd_ok]
  refine Eq.trans (run_sends (by rfl) (by rfl) hh (by rfl) (tooLong_of_fits (by exact hl)) (by rfl)) ?_
  rw [Panel.sent_cmd_ok]
  simp [Panel.afterOk, Panel.pushed, hb]

/-- A successful init, from the state its request leaves to its status. -/
theorem run_init {s : State} {rest : List Bool} {moves : List Input} (hs : s.ready)
    (hd : s.params.cmdMadctl ≠ s.params.cmdColmod) (hi : s.turns (initSteps s.panel.cfgTable) moves)
    (hfit : ∀ r ∈ s.panel.cfgTable, rowFits s.params r)
    (hl : payloadFits s.params 1) (ha : s.answers = List.replicate (3 + s.panel.cfgTable.length) true ++ rest) :
    core.run (initSteps s.panel.cfgTable) { s with panel := s.panel.started .init } = .next { s with
      inputs := moves
      answers := rest
      panel := (((s.panel.started .init).pushed s.params).walk s.params s.panel.cfgTable).finish .ok } := by
  obtain ⟨-, -, hb, hh⟩ := hs
  have answers : s.answers = true :: true :: true :: (List.replicate s.panel.cfgTable.length true ++ rest) := by
    rw [ha, List.replicate_add]
    rfl
  have atFirst : ((s.panel.started .init).pushed s.params).AtRow [] s.panel.cfgTable := ⟨rfl, hb, hh, rfl, rfl⟩
  rw [initSteps_eq] at hi ⊢
  refine (run_pushes (s := { s with panel := s.panel.started .init }) hi rfl hb hh hl answers).trans ?_
  exact run_walk (by rfl) atFirst hd hfit (by rfl)

/-- Settles O29: the pushes take the object to the first row, from there the table is walked to its end, and each part
of the statement is what the pushes and the walk leave. -/
theorem successfulInitWalksTheWholeTable : Obligations.SuccessfulInitWalksTheWholeTable := by
  unfold Obligations.SuccessfulInitWalksTheWholeTable
  intro s rest moves hs hd hi hfit hl ha
  have hmc : s.params.cmdMadctl ≠ s.params.cmdColmod := by
    intro e
    simp [Params.distinct, Params.commands, e] at hd
  let p := (s.panel.started .init).pushed s.params
  refine ⟨_, _, exec_ready hs rfl, run_init hs hmc hi hfit hl ha, rfl, ?_, rfl, rfl, rfl, ?_, ?_, ?_,
    List.getLast?_concat, p.walk_orient _ _, p.walk_colmodSh _ _, p.walk_diag _ _⟩
  · obtain ⟨live, -⟩ := hs
    exact (p.walk_kept _ _ Panel.life fun _ _ => rfl).trans live
  · exact p.walk_kept _ _ Panel.pending fun _ _ => rfl
  · rw [Panel.finish_busEvents, Panel.walk_busEvents, Panel.pushed_busEvents, List.map_append, ← List.append_assoc]
    rfl
  · rw [Panel.finish_waitEvents, Panel.walk_waitEvents, Panel.pushed_waitEvents]
    rfl

end Sys2Proof.Machine
end

section
/-! A draw from its window to its status, what DRAW_CHECK reads, and set_gap (R190 to R192, R194 to R196). -/

namespace Sys2Proof.Machine

/-! ### set_gap (R195) -/

/-- Settles O46: the request runs whole in the step that accepts it, and its end emits no transaction. -/
theorem setGapWritesTheGaps : Obligations.SetGapWritesTheGaps := by
  unfold Obligations.SetGapWritesTheGaps
  intro s x y hs
  rw [exec_ready hs rfl]
  obtain ⟨-, hf, hb, hh⟩ := hs
  exact congrArg (fun p => Host.Outcome.next { s with panel := p })
    (Panel.finish_of_quiet (p := { s.panel with xGap := x, yGap := y }) hf hb hh .ok)

/-! ### What DRAW_CHECK reads (R190, R192) -/

/-- DRAW_CHECK goes on exactly where the rectangle has a window. -/
theorem Panel.checkDraw_fsm (p : Panel) (r : DrawArgs) :
    (p.checkDraw r).fsm = ((windowOf p.bpp p.xGap p.yGap r).map Fsm.drawCaset).getD .idle := by
  unfold Panel.checkDraw
  cases windowOf p.bpp p.xGap p.yGap r <;> rfl

/-- The window DRAW_CHECK goes on with is R190's. -/
theorem Panel.windowOf_of_checkDraw {p : Panel} {r : DrawArgs} {w : Window} (h : (p.checkDraw r).fsm = .drawCaset w) :
    windowOf p.bpp p.xGap p.yGap r = some w := by
  rw [Panel.checkDraw_fsm] at h
  cases hw : windowOf p.bpp p.xGap p.yGap r with
  | none => simp [hw] at h
  | some v => simpa [hw] using h

theorem half_eq_of_toNat {a b : Half} {x : Int} (ha : (a.toNat : Int) = x) (hb : (b.toNat : Int) = x) : a = b :=
  BitVec.eq_of_toNat_eq (Int.ofNat.inj (ha.trans hb.symm))

section
variable {bpp bpp' : Bpp} {xGap xGap' yGap yGap' : Word} {r : DrawArgs} {w v : Window}

theorem Window.Computes.columns_eq (hw : w.Computes bpp xGap yGap r) (hv : v.Computes bpp' xGap' yGap' r)
    (h : xGap = xGap') : w.xs = v.xs ∧ w.xe = v.xe := by
  subst h
  exact ⟨half_eq_of_toNat hw.xs hv.xs, half_eq_of_toNat hw.xe hv.xe⟩

theorem Window.Computes.rows_eq (hw : w.Computes bpp xGap yGap r) (hv : v.Computes bpp' xGap' yGap' r)
    (h : yGap = yGap') : w.ys = v.ys ∧ w.ye = v.ye := by
  subst h
  exact ⟨half_eq_of_toNat hw.ys hv.ys, half_eq_of_toNat hw.ye hv.ye⟩

theorem Window.Computes.n_eq (hw : w.Computes bpp xGap yGap r) (hv : v.Computes bpp' xGap' yGap' r)
    (h : bpp = bpp') : w.n = v.n := by
  subst h
  have same : (w.n : Int) * 8 = v.n * 8 := hw.n.trans hv.n.symm
  omega

end

/-- A change `f` of the object that leaves LIFE and the FSM state alone, and commutes with the faults and with the start
of the operation, commutes with accepting the request (R238). -/
theorem State.accept_commutes {s t : State} {start f : Panel → Panel} (h : s.accept start = .next t)
    (hfsm : (f s.panel).fsm = s.panel.fsm) (hlife : (f s.panel).life = s.panel.life)
    (hfault : ∀ x, (f s.panel).setFault x = f (s.panel.setFault x)) (hstart : start (f s.panel) = f (start s.panel)) :
    (s.onPanel f).accept start = .next (t.onPanel f) := by
  obtain ⟨idle, live, rfl⟩ | ⟨idle, destroyed, rfl⟩ | ⟨busy, rfl⟩ := State.accept_cases h
  · rw [State.accept_live (s.onPanel f) start (hlife.trans live) (hfsm.trans idle)]
    exact congrArg (fun p => Host.Outcome.next { s with panel := p }) hstart
  · rw [State.accept_destroyed (s.onPanel f) start (hlife.trans destroyed) (hfsm.trans idle)]
    exact congrArg (fun p => Host.Outcome.next { s with panel := p }) (hfault _)
  · rw [State.accept_busy (s.onPanel f) start fun idle => busy (hfsm.symm.trans idle)]
    exact congrArg (fun p => Host.Outcome.next { s with panel := p }) (hfault _)

/-- Settles O45: accepting a draw reads neither shadow register, and DRAW_CHECK goes on with what `windowOf` computes,
whose columns read XGAP, whose rows read YGAP and whose length reads BPP. -/
theorem drawIgnoresTheShadowRegisters : Obligations.DrawIgnoresTheShadowRegisters := by
  unfold Obligations.DrawIgnoresTheShadowRegisters
  refine ⟨fun s t x0 y0 x1 y1 buf v c h => ?_, fun s t r ms mt hsi hti hsf htf hsb htb hsh hth => ?_⟩
  · exact State.accept_commutes (f := fun p => { p with orient := v, colmodSh := c }) h rfl rfl (fun _ => rfl) rfl
  · refine ⟨s.panel.checkDraw r, t.panel.checkDraw r, (Panel.TurnsTo.checkDraw hsb hsh hsf).step hsi,
      (Panel.TurnsTo.checkDraw htb hth htf).step hti, fun hx hy hbpp => ?_, fun w v hw hv => ?_⟩
    · rw [Panel.checkDraw_fsm, Panel.checkDraw_fsm, hx, hy, hbpp]
    · obtain ⟨-, cw⟩ := windowOf_computes (Panel.windowOf_of_checkDraw hw)
      obtain ⟨-, cv⟩ := windowOf_computes (Panel.windowOf_of_checkDraw hv)
      exact ⟨cw.columns_eq cv, cw.rows_eq cv, cw.n_eq cv⟩

/-! ### The three transactions (R190, R194, R196) -/

/-- What the two window commands of a draw, both accepted, make of an object in DRAW_CASET (R190). -/
def Panel.windowSet (par : Config.Params) (p : Panel) (w : Window) : Panel :=
  { p with
    fsm := .drawRamwr w
    hist := p.hist ++ [.bus (frame p.cfgVariant (.cmd par.cmdCaset (winPayload w.xs w.xe))), .ack true,
      .bus (frame p.cfgVariant (.cmd par.cmdRaset (winPayload w.ys w.ye))), .ack true] }

/-- From DRAW_CASET to the pixel transfer: the column window, then the row window. -/
theorem run_setsWindow {s : State} {w : Window} {rest : List Bool} {k : Nat} {moves : List Input}
    (hi : s.turns (k + 6) moves) (hf : s.panel.fsm = .drawCaset w) (hb : s.panel.bus = .free)
    (hh : s.panel.hold = none) (hl : payloadFits s.params 4) (ha : s.answers = true :: true :: rest) :
    core.run (k + 6) s = core.run k { s with
      inputs := List.replicate k .turn ++ moves, answers := rest, panel := s.panel.windowSet s.params w } := by
  refine (run_sends hi hb hh (by rw [Panel.transaction, hf]) (tooLong_of_fits (by exact hl)) ha).trans ?_
  rw [Panel.sent_cmd_ok, Panel.afterOk, hf]
  refine Eq.trans (run_sends (by rfl) (by rfl) hh (by rfl) (tooLong_of_fits (by exact hl)) (by rfl)) ?_
  rw [Panel.sent_cmd_ok]
  simp [Panel.afterOk, Panel.windowSet, hb]

/-- The pixel transfer of a draw, accepted, is left pending and ends the draw (R113, R194). -/
theorem Panel.sent_pix_drawRamwr {p : Panel} {w : Window} (hf : p.fsm = .drawRamwr w) (op8 : Byte) (buf n : Nat) :
    p.sent (.pix op8 buf n) true = { p with
      fsm := .idle, bus := .free, hold := none, pending := p.pending ++ [⟨buf, n, p.sendRaced⟩]
      hist := p.hist ++ [.bus (frame p.cfgVariant (.pix op8 buf n)), .ack true, .status .ok] } := by
  refine (Panel.acknowledge_pix_drawRamwr (by exact hf) op8 buf n).trans ?_
  simp

/-- Settles O44: six turns set the window, and three more send the pixels. -/
theorem drawEmitsThreeTransactions : Obligations.DrawEmitsThreeTransactions := by
  unfold Obligations.DrawEmitsThreeTransactions
  intro s w rest moves hi hf hb hh ha hl
  have pixels : (s.panel.windowSet s.params w).fsm = .drawRamwr w := rfl
  refine (run_setsWindow (k := 3) hi hf hb hh hl ha).trans ?_
  refine Eq.trans (run_sends (k := 0) (by rfl) hb hh (by rfl) (tooLong_pix _ _ _ _) (by rfl)) ?_
  rw [core_run_zero, Panel.sent_pix_drawRamwr pixels]
  simp [Panel.windowSet, hb, hh]

end Sys2Proof.Machine
end

section
/-! The orientation byte: what a request drives and what it keeps, and R215's formula (R22, R23, R215). -/

namespace Sys2Proof.Machine

open Config (Params)

/-! ### Single bits -/

theorem bitValue_eq (k : Fin 8) (b : Bool) : bitValue k b = (if b then 1#8 else 0#8) <<< k.val := by
  cases b <;> rfl

theorem bitMask_getLsbD (k j : Fin 8) : (bitMask k).getLsbD j = decide (j = k) := by
  revert k j
  decide

theorem bitValue_getLsbD (k j : Fin 8) (b : Bool) : (bitValue k b).getLsbD j = (b && decide (j = k)) := by
  cases b with
  | false => simp [bitValue_eq]
  | true => exact bitMask_getLsbD k j

/-- Clearing one bit leaves a value at another as it is. -/
theorem bitValue_and_not_bitMask {k m : Fin 8} (h : k ≠ m) (b : Bool) :
    bitValue k b &&& ~~~bitMask m = bitValue k b := by
  refine BitVec.eq_of_getLsbD_eq fun j hj => ?_
  have value := bitValue_getLsbD k ⟨j, hj⟩ b
  have mask := bitMask_getLsbD m ⟨j, hj⟩
  dsimp only at value mask
  rw [BitVec.getLsbD_and, BitVec.getLsbD_not, value, mask]
  by_cases hk : (⟨j, hj⟩ : Fin 8) = k
  · simp [hk, h, hj]
  · simp [hk]

/-! ### What the requests drive (R211, R212) -/

theorem orientMirror_getLsbD (par : Params) (v : Byte) (x y : Bool) (j : Fin 8) :
    (orientMirror par v x y).getLsbD j =
      (v.getLsbD j && !(decide (j = par.bitMx) || decide (j = par.bitMy)) || x && decide (j = par.bitMx) ||
        y && decide (j = par.bitMy)) := by
  simp only [orientMirror, BitVec.getLsbD_or, BitVec.getLsbD_and, BitVec.getLsbD_not, bitMask_getLsbD,
    bitValue_getLsbD, j.isLt, decide_true, Bool.true_and]

theorem orientSwap_getLsbD (par : Params) (v : Byte) (b : Bool) (j : Fin 8) :
    (orientSwap par v b).getLsbD j = (v.getLsbD j && !decide (j = par.bitMv) || b && decide (j = par.bitMv)) := by
  simp only [orientSwap, BitVec.getLsbD_or, BitVec.getLsbD_and, BitVec.getLsbD_not, bitMask_getLsbD,
    bitValue_getLsbD, j.isLt, decide_true, Bool.true_and]

/-- mirror drives MX and MY, where they are two bits. -/
theorem orientMirror_drives {par : Params} (h : par.bitMx ≠ par.bitMy) (v : Byte) (x y : Bool) :
    (orientMirror par v x y).getLsbD par.bitMx = x ∧ (orientMirror par v x y).getLsbD par.bitMy = y := by
  rw [orientMirror_getLsbD, orientMirror_getLsbD]
  simp [h, h.symm]

theorem orientMirror_keeps {par : Params} {k : Fin 8} (hx : k ≠ par.bitMx) (hy : k ≠ par.bitMy) (v : Byte)
    (x y : Bool) : (orientMirror par v x y).getLsbD k = v.getLsbD k := by
  rw [orientMirror_getLsbD]
  simp [hx, hy]

/-- swap_xy drives MV. -/
theorem orientSwap_drives (par : Params) (v : Byte) (b : Bool) : (orientSwap par v b).getLsbD par.bitMv = b := by
  rw [orientSwap_getLsbD]
  simp

theorem orientSwap_keeps {par : Params} {k : Fin 8} (h : k ≠ par.bitMv) (v : Byte) (b : Bool) :
    (orientSwap par v b).getLsbD k = v.getLsbD k := by
  rw [orientSwap_getLsbD]
  simp [h]

/-! ### The two together (R215) -/

/-- R215's formula. -/
def orientBoth (par : Params) (base : Byte) (x y b : Bool) : Byte :=
  (base &&& ~~~(bitMask par.bitMx ||| bitMask par.bitMy ||| bitMask par.bitMv)) ||| bitValue par.bitMx x |||
    bitValue par.bitMy y ||| bitValue par.bitMv b

section
variable {par : Params} (hx : par.bitMx ≠ par.bitMv) (hy : par.bitMy ≠ par.bitMv) (base : Byte) (x y b : Bool)
include hx hy

/-- swap_xy clears MV alone, so the bits mirror drove before it stay. -/
theorem orientSwap_orientMirror : orientSwap par (orientMirror par base x y) b = orientBoth par base x y b := by
  rw [orientSwap, orientMirror, BitVec.and_or_distrib_right, BitVec.and_or_distrib_right,
    bitValue_and_not_bitMask hx, bitValue_and_not_bitMask hy, BitVec.and_assoc, ← BitVec.not_or]
  rfl

/-- mirror clears MX and MY alone, so the bit swap_xy drove before it stays. -/
theorem orientMirror_orientSwap : orientMirror par (orientSwap par base b) x y = orientBoth par base x y b := by
  have kept : bitValue par.bitMv b &&& ~~~(bitMask par.bitMx ||| bitMask par.bitMy) = bitValue par.bitMv b := by
    rw [BitVec.not_or, ← BitVec.and_assoc, bitValue_and_not_bitMask hx.symm, bitValue_and_not_bitMask hy.symm]
  rw [orientMirror, orientSwap, BitVec.and_or_distrib_right, kept, BitVec.and_assoc, ← BitVec.not_or, orientBoth]
  ac_rfl

end

/-- Settles O49: each request clears only the bits it drives, so either order leaves R215's formula. -/
theorem mirrorAndSwapCommute : Obligations.MirrorAndSwapCommute := by
  unfold Obligations.MirrorAndSwapCommute
  intro par base x y b hx hy
  have swapLast := orientSwap_orientMirror hx hy base x y b
  refine ⟨swapLast.trans (orientMirror_orientSwap hx hy base x y b).symm, swapLast.trans ?_⟩
  rw [orientBoth, bitValue_eq, bitValue_eq, bitValue_eq]
  rfl

end Sys2Proof.Machine
end

section
/-! The orientation requests and the binary commands, from the request to the status (R211 to R214, R233). -/

namespace Sys2Proof.Machine

/-! ### The last transaction of an operation -/

/-- The status a command leaves as the last transaction of its operation (R233). -/
def lastStatus (op8 : Byte) (ok : Bool) : Status := if ok then .ok else .transportError op8

/-- Whatever its BUS_ACK, the command of ORI_SEND or CMD_SEND ends the operation, and writes the history alone. -/
theorem Panel.sent_last {p : Panel} (hf : p.fsm = .oriSend ∨ ∃ c, p.fsm = .cmdSend c) (op8 : Byte)
    (payload : List Byte) (ok : Bool) : p.sent (.cmd op8 payload) ok = { p with
      fsm := .idle, bus := .free, hold := none
      hist := p.hist ++ [.bus (frame p.cfgVariant (.cmd op8 payload)), .ack ok, .status (lastStatus op8 ok)] } := by
  cases ok with
  | false => simp [Panel.sent, Panel.acknowledge_err, Transaction.op8, lastStatus]
  | true => obtain hf | ⟨c, hf⟩ := hf <;> simp [Panel.sent_cmd_ok, Panel.afterOk, Panel.finish, lastStatus, hf]

/-! ### mirror and swap_xy (R211, R212) -/

/-- ORI_UPDATE writes the shadow, before any transaction (D14). -/
theorem State.foreground_updatesOrient {s : State} {c : OrientCall} (hf : s.panel.fsm = .oriUpdate c)
    (hb : s.panel.bus = .free) (hh : s.panel.hold = none) :
    s.foreground = .next { s with panel := s.panel.updateOrient s.params c } := by
  rw [s.foreground_action hb hh (by simp [Panel.commandRow, hf]), State.fsmAction, hf]
  rfl

/-- The turn after an orientation request (log 1). -/
theorem step_updatesOrient {s : State} (hs : s.ready) (c : OrientCall) {moves : List Input} (hi : s.turns 1 moves) :
    step { s with panel := { s.panel with fsm := .oriUpdate c } } = .next { s with
      inputs := moves
      panel := { s.panel with orient := orientAfter s.params s.panel.orient c, fsm := .oriSend } } := by
  obtain ⟨-, -, hb, hh⟩ := hs
  exact (step_turn { s with panel := { s.panel with fsm := .oriUpdate c } } moves hi).trans
    (State.foreground_updatesOrient rfl hb hh)

/-- An orientation request takes a turn for the shadow and three for MADCTL; ORIENT stays, whatever the BUS_ACK. -/
theorem run_updatesOrient {s : State} (hs : s.ready) (c : OrientCall) {ok : Bool} {rest : List Bool}
    {moves : List Input} (ha : s.answers = ok :: rest) (hl : payloadFits s.params 1) (hi : s.turns 4 moves) :
    core.run 4 { s with panel := { s.panel with fsm := .oriUpdate c } } = .next { s with
      inputs := moves, answers := rest
      panel := { s.panel with
        orient := orientAfter s.params s.panel.orient c
        hist := s.panel.hist ++ [
          .bus (frame s.panel.cfgVariant (.cmd s.params.cmdMadctl [orientAfter s.params s.panel.orient c])),
          .ack ok, .status (lastStatus s.params.cmdMadctl ok)] } } := by
  obtain ⟨-, hf, hb, hh⟩ := hs
  refine (run_turn (s := { s with panel := { s.panel with fsm := .oriUpdate c } }) (k := 3) hi
    (State.foreground_updatesOrient rfl hb hh)).trans ?_
  refine Eq.trans (run_sends (k := 0) (by rfl) hb hh (by rfl) (tooLong_of_fits (by exact hl)) ha) ?_
  rw [core_run_zero, Panel.sent_last (.inl rfl)]
  simp [Panel.updateOrient, hf, hb, hh]

/-- Settles O47: the new byte is R23's, read bit by bit. -/
theorem mirrorDrivesMxAndMy : Obligations.MirrorDrivesMxAndMy := by
  unfold Obligations.MirrorDrivesMxAndMy
  intro s x y rest moves hs
  exact ⟨_, orientMirror s.params s.panel.orient x y, exec_ready hs rfl, rfl,
    fun h => orientMirror_drives h _ x y, fun k hx hy => orientMirror_keeps hx hy _ x y,
    step_updatesOrient hs (.mirror x y), run_updatesOrient hs (.mirror x y)⟩

/-- Settles O48: the new byte is R23's, read bit by bit. -/
theorem swapXyDrivesMv : Obligations.SwapXyDrivesMv := by
  unfold Obligations.SwapXyDrivesMv
  intro s b rest moves hs
  exact ⟨_, orientSwap s.params s.panel.orient b, exec_ready hs rfl, rfl, orientSwap_drives _ _ b,
    fun k hv => orientSwap_keeps hv _ b, step_updatesOrient hs (.swap b), run_updatesOrient hs (.swap b)⟩

/-- Settles O50: an err ends the operation after ORI_UPDATE has written the shadow. -/
theorem orientationKeepsItsValueOnError : Obligations.OrientationKeepsItsValueOnError := by
  unfold Obligations.OrientationKeepsItsValueOnError
  rintro s i v rest moves hs hi (⟨x, y, rfl, rfl⟩ | ⟨b, rfl, rfl⟩) hl ha
  · exact ⟨_, exec_ready hs rfl, run_updatesOrient hs (.mirror x y) ha hl hi⟩
  · exact ⟨_, exec_ready hs rfl, run_updatesOrient hs (.swap b) ha hl hi⟩

/-! ### invert_color and display_on_off (R213, R214) -/

/-- A binary command takes three turns and writes no register, whatever the BUS_ACK. -/
theorem run_sendsBinary {s : State} (hs : s.ready) (c : BinaryCmd) {ok : Bool} {rest : List Bool} {moves : List Input}
    (ha : s.answers = ok :: rest) (hi : s.turns 3 moves) :
    core.run 3 { s with panel := { s.panel with fsm := .cmdSend c } } = .next { s with
      inputs := moves, answers := rest
      panel := { s.panel with hist := s.panel.hist ++
        [.bus (frame s.panel.cfgVariant (.cmd (c.byte s.params) [])), .ack ok,
         .status (lastStatus (c.byte s.params) ok)] } } := by
  obtain ⟨-, hf, hb, hh⟩ := hs
  refine (run_sends (s := { s with panel := { s.panel with fsm := .cmdSend c } }) (k := 0) hi hb hh rfl
    (tooLong_nil _ _) ha).trans ?_
  rw [core_run_zero, Panel.sent_last (.inr ⟨c, rfl⟩)]
  simp [hf, hb, hh]

/-- Settles O51: either request takes CMD_SEND with the command its argument selects. -/
theorem binaryCommandsKeepNoState : Obligations.BinaryCommandsKeepNoState := by
  unfold Obligations.BinaryCommandsKeepNoState
  intro s on rest moves hs
  refine ⟨exec_ready hs rfl, exec_ready hs rfl, fun ha hi => ⟨_, exec_ready hs rfl, ?_⟩,
    fun ha hi => ⟨_, exec_ready hs rfl, ?_⟩⟩
  · cases on with
    | false => exact run_sendsBinary hs .invOff ha hi
    | true => exact run_sendsBinary hs .invOn ha hi
  · cases on with
    | false => exact run_sendsBinary hs .dispOff ha hi
    | true => exact run_sendsBinary hs .dispOn ha hi

end Sys2Proof.Machine
end

section
/-! What a request, a create and a BUS_ACK of err do where something stands in the way: an operation in progress, a live
object, an argument, a denied grant, the Transport (R171, R233, R236, R238, R239). -/

namespace Sys2Proof.Machine

/-! ### A request while something is there (R238) -/

/-- Settles O13: every request but create is accepted by the one rule of R238, which looks at the FSM first. -/
theorem requestDuringAnOperationOnlySetsConcurrentCall :
    Obligations.RequestDuringAnOperationOnlySetsConcurrentCall := by
  unfold Obligations.RequestDuringAnOperationOnlySetsConcurrentCall
  intro s i hi busy
  rw [exec_request hi, s.accept_busy _ busy]
  rfl

theorem execCreate_live {s : State} (hd : s.params.distinct) (hl : s.panel.life = .live) (v : Option Variant)
    (l : Option ResetLine) (co bpp : Byte) (tab : Option (List InitRow)) :
    exec (.create v l co bpp tab) s = .next (s.setAside.createHere v l co bpp tab) := by
  show execCreate v l co bpp tab s = _
  rw [execCreate, if_pos hd, hl]

/-- Settles O21: both creates run R130 on the absent slot, which moves neither the objects set aside nor host memory. -/
theorem createNeverActsOnALiveObject : Obligations.CreateNeverActsOnALiveObject := by
  unfold Obligations.CreateNeverActsOnALiveObject
  intro s t l co bpp tab hd hl
  have onFresh : exec (.create t l co bpp tab) s.setAside = .next (s.setAside.createHere t l co bpp tab) :=
    execCreate_absent (s := s.setAside) hd rfl t l co bpp tab
  obtain ⟨others, mem, -, -, -⟩ := s.setAside.createHere_rest t l co bpp tab
  exact ⟨(execCreate_live hd hl t l co bpp tab).trans onFresh.symm,
    _, execCreate_live hd hl t l co bpp tab, others, mem⟩

/-! ### The errors of create (R236) -/

section

variable {s : State} {rest : List Bool} {line : Option ResetLine} {co bpp : Byte} {tab : Option (List InitRow)}

/-- A transport that is missing ends a create before it asks the environment for anything. -/
theorem State.createHere_noTransport :
    s.createHere none line co bpp tab = s.onPanel (·.finish .invalidArgument) := rfl

theorem State.createHere_notAllocated (ha : s.answers = false :: rest) (v : Variant) :
    s.createHere (some v) line co bpp tab = { s with answers := rest, panel := s.panel.finish .outOfMemory } := by
  simp [State.createHere, s.ask_listed false rest ha, State.onPanel]

/-- A claim that fails is an event of the history (R130, log 16). -/
theorem State.createHere_notClaimed (ha : s.answers = true :: false :: rest) (v : Variant) (l : ResetLine) :
    s.createHere (some v) (some l) co bpp tab = { s with
      answers := rest, panel := (s.panel.emit (.claim l.gpio false)).finish .resetLineError } := by
  simp [State.createHere, s.ask_listed true _ ha, State.claimLine, State.onPanel, Panel.emit,
    State.ask_listed { s with answers := false :: rest } false rest rfl]

theorem colorIsBgr_unsupported (h : ¬ (co = 0 ∨ co = 1)) : colorIsBgr co = none := by
  obtain ⟨notRgb, notBgr⟩ := not_or.1 h
  rw [colorIsBgr, if_neg notRgb, if_neg notBgr]

theorem pixelFormat_unsupported (h : ¬ (bpp = 16 ∨ bpp = 18)) : pixelFormat bpp = none := by
  obtain ⟨not16, not18⟩ := not_or.1 h
  rw [pixelFormat, if_neg not16, if_neg not18]

/-- Outside RGB and BGR, or outside 16 and 18 bits, a configuration is not supported (R81, R234). -/
theorem supportedConfig_unsupported (h : ¬ ((co = 0 ∨ co = 1) ∧ (bpp = 16 ∨ bpp = 18))) :
    supportedConfig co bpp = none := by
  obtain color | format := not_and_or.1 h
  · rw [supportedConfig, colorIsBgr_unsupported color]
  · rw [supportedConfig, pixelFormat_unsupported format]
    cases colorIsBgr co <;> rfl

theorem State.configure_unsupported (h : ¬ ((co = 0 ∨ co = 1) ∧ (bpp = 16 ∨ bpp = 18))) (v : Variant) :
    s.configure v line co bpp tab = s.onPanel fun p => (p.releaseLine line).finish .unsupportedConfig := by
  rw [State.configure, supportedConfig_unsupported h]

end

/-- Settles O19: R130 meets the errors in R236's order, and looks at no later argument before it ends. -/
theorem createReportsTheFirstError : Obligations.CreateReportsTheFirstError := by
  unfold Obligations.CreateReportsTheFirstError
  intro s v l line co bpp tab rest hd hl
  simp only [execCreate_absent hd hl]
  refine ⟨?_, fun ha => ?_, fun ha => ?_, fun unsupported ha => ?_, fun unsupported ha => ?_⟩
  · rw [State.createHere_noTransport]
  · rw [State.createHere_notAllocated ha]
  · rw [State.createHere_notClaimed ha]
  · rw [State.createHere_line ha, State.configure_unsupported unsupported]
    rfl
  · rw [State.createHere_noLine ha, State.configure_unsupported unsupported]
    rfl

/-! ### A BUS_ACK of err (R233) -/

/-- Settles O35: the Transport takes the listed answer, and an err ends the operation. -/
theorem transportErrorEndsTheOperation : Obligations.TransportErrorEndsTheOperation := by
  unfold Obligations.TransportErrorEndsTheOperation
  intro s t rest moves hi hb fits ha
  rw [step_turn s moves hi, State.foreground_acknowledges (s := { s with inputs := moves }) hb fits ha,
    Panel.acknowledge_err]

end Sys2Proof.Machine
end
